-- ==== Sys2Proof/Word.lean ====
section
/-! DEFINITION. The widths that occur on the wire and in the registers of the block (R7, R47). -/

namespace Sys2Proof

/-- `u8`: the unit of addressing of every buffer (R40) and the width of `CMD`, `STATUS` and `VER`. -/
abbrev Byte := BitVec 8

/-- `u16`: checksums and the length fields of every frame (R47). -/
abbrev Half := BitVec 16

/-- The 32-bit registers (`INFO`, `IDLE_TIMEOUT`, the counts and the lengths; R30). -/
abbrev Word := BitVec 32

/-- `u64`: the node identity (R12). -/
abbrev NodeId := BitVec 64

/-- `bytes` of R7: a finite sequence of `u8`, in order of increasing offset. -/
abbrev Bytes := List Byte

end Sys2Proof
end

