-- ==== Sys2Proof/Machine/Types.lean ====
section
/-! DEFINITION. The plain data the block exchanges with its surroundings: the decoded record, the answers of the
environment, the accesses of the host, and the names of the registers, buffers and status codes. -/

namespace Sys2Proof.Machine

open Sys2Proof

/-- A consumer handle, a `CB_W`-bit value (R17, R176). `CB_W` is open, so a handle is held as a number below
`2 ^ CB_W`; the one writer, `Reg.handle`, cuts to that width. -/
abbrev Handle := Nat

/-- The seven values of a decoded publish record (R22), in the order in which a consumer receives them (R53). -/
structure Record where
  nodeId : NodeId
  type : Byte
  version : Byte
  topicLen : Half
  topic : Bytes
  dataLen : Word
  data : Bytes
deriving DecidableEq, Repr, Inhabited

/-- The result codes of R77, by name. -/
inductive Status where
  | ok
  | errRx
  | errTxShort
  | errLength
  | errFull
  | errBusy
  | errCmd
  | errNoRec
deriving DecidableEq, Repr

/-- What one consumer invocation returns (R53, R176). -/
inductive ConsumerOutcome where
  | ok
  | failed
deriving DecidableEq, Repr, Inhabited

/-- One answer of `env.invoke` (R53): the outcome, and the command codes the consumer tried to write to `CMD` while it
was being invoked, each of which the block refuses (R185, R239). -/
structure InvokeAnswer where
  outcome : ConsumerOutcome
  cmdWrites : Bytes
deriving DecidableEq, Repr, Inhabited

/-- One item of `CBTRACE` (R31). -/
structure CbItem where
  handle : Handle
  record : Record
  outcome : ConsumerOutcome
deriving DecidableEq, Repr

/-- One answer of `env.read_available` (R50). `chunk []` is the empty sequence, which R50 treats like `nothing`. -/
inductive RxAnswer where
  | nothing
  | chunk (s : Bytes)
  | fail
deriving DecidableEq, Repr, Inhabited

/-- What the receive side presents to one iteration of the link reader.
`tick` is an iteration of the hardware form (R144): one tick of the clock, at most one byte, and a failure report; both
may be raised in one tick (R207). `poll` is an iteration of the source's loop (R142): one answer of
`env.read_available`, and by how many ticks the reading of `env.now` made in this iteration exceeds the one before. -/
inductive LineEvent where
  | tick (byte : Option Byte) (failed : Bool)
  | poll (answer : RxAnswer) (elapsed : Nat)
deriving DecidableEq, Repr, Inhabited

/-- The numbered registers of R30, by name. -/
inductive Reg where
  | cmd | status | info | flags | nodeId | seed | crc | ver | handle | idleTimeout | txCount | regCount | dispatched
  | recNodeId | recType | recVersion | recTopicLen | recDataLen
  | in0Len | in1Len | in2Len | outLen | fbufLen | txbufLen | accLen
deriving DecidableEq, Repr

/-- The byte buffers of R40, each an address space of its own. -/
inductive BufId where
  | in0 | in1 | in2 | out | fbuf | txbuf | acc | recTopic | recData
deriving DecidableEq, Repr

/-- One access of the host (R30, R45, R78, R230). -/
inductive HostAccess where
  /-- write `value` to a register; a write of `CMD` is the start of a command (R13) -/
  | write (reg : Reg) (value : Nat)
  /-- read a register -/
  | read (reg : Reg)
  /-- `MemWrite` of these bytes from offset `off` on (R45) -/
  | writeBuf (buf : BufId) (off : Nat) (bytes : Bytes)
  /-- `MemRead` of `n` bytes from offset `off` on (R45) -/
  | readBuf (buf : BufId) (off n : Nat)
  /-- read the registry entry `REGY[k]` (R30) -/
  | readEntry (k : Nat)
  /-- assert reset, that is, construct the block anew with this `NODE_ID` parameter (R230) -/
  | reset (nodeId : NodeId)
deriving DecidableEq, Repr

/-- One event of the block's surroundings, in the one order in which they happen (R54). -/
inductive Input where
  | host (a : HostAccess)
  | line (e : LineEvent)
deriving DecidableEq, Repr

/-- What the last host access was answered with. -/
inductive HostReply where
  /-- no access has been made yet -/
  | idle
  /-- the write was performed, or the command was accepted -/
  | done
  /-- the write was not performed (R18, R44, R211, R242) -/
  | ignored
  /-- `ERR_BUSY` with the code written as its detail, to this writer alone (R13, R217) -/
  | errBusy (code : Byte)
  /-- the value of the register or registry entry read -/
  | value (v : Nat)
  /-- the bytes read -/
  | bytes (b : Bytes)
  /-- the read yields no value: a write-only register, a record register while `REC_VALID = 0` (R33, R169), an entry at or
  beyond `REG_COUNT` or bytes at or beyond a buffer's length (R33), or anything but `FLAGS` while `BUSY = 1` (R49) -/
  | noValue
deriving DecidableEq, Repr

/-- The construction parameters of R6 that a rule's result depends on, `NODE_ID` apart; `none` is an unbounded capacity,
which R42, R43 and R179 allow. -/
structure Params where
  frameMax : Option Nat
  rxMax : Option Nat
  maxConsumers : Option Nat
  cbW : Nat
deriving DecidableEq, Repr, Inhabited

/-- The row of `REC_TOPIC` in R41's table: `min(65535, RX_MAX, FRAME_MAX)`; an unbounded parameter sets no bound. -/
def Params.topicRow (p : Params) : Nat := min 65535 (min (p.rxMax.getD 65535) (p.frameMax.getD 65535))

/-- The longest topic that R160 can accept: its length is a `u16`, and 12 bytes precede it in the input, which is `IN0` of
at most `FRAME_MAX` bytes (R41) or what `ACC`, of at most `RX_MAX` bytes, holds after the 4 bytes of a header (R188). -/
def Params.longestTopic (p : Params) : Nat :=
  min 65535 (max (p.frameMax.getD (65535 + 12) - 12) (p.rxMax.getD (65535 + 16) - 16))

/-- Does R41's row hold every topic that R160 writes? The two rules contradict each other of the other parameters, which
R6 and C9 allow all the same (assumption 18). -/
def Params.topicsFit (p : Params) : Bool := decide (p.longestTopic ≤ p.topicRow)

/-- The capacity of `REC_TOPIC`: R41's row, and where the row is too small for the parser's input, the room that input
needs, which R43 gives as the buffer's measure (assumption 18). -/
def Params.topicCapacity (p : Params) : Nat := max p.topicRow p.longestTopic

end Sys2Proof.Machine
end

