-- ==== Sys2Proof/Config.lean ====
section
/-! DEFINITION. What an implementation of the block fixes (R6), and the values the spec leaves free. A constant without a
body is a free value: nothing can be proved of what it is. -/

namespace Sys2Proof.Config

open Sys2Proof Sys2Proof.Machine

/-- `FRAME_SEED` (R6, R63), fixed to 0x0000 by decision D5. -/
def frameSeed : Half := 0x0000

/-- `TIME_W` (R6), the width of the tick counter and of `IDLE_TIMEOUT`, fixed to 32 by decision D11. -/
abbrev timeW : Nat := 32

/-- The construction parameter `NODE_ID` (R6, R12): open. -/
opaque nodeId : NodeId

/-- The parameters `State.reset` is constructed with: `FRAME_MAX`, `RX_MAX`, `MAX_CONSUMERS` and `CB_W` (R6), all open and
independent of each other: each number at any value, and each capacity unbounded or not. -/
opaque params : Params

/-- `TICK_HZ` (R6, D11): open, positive; no rule depends on it. -/
opaque tickHzLessOne : Nat
def tickHz : Nat := tickHzLessOne + 1

/-- `READ_CHUNK` (R6), the `max_len` passed to `env.read_available`: open, at least 1; no result depends on it (R143). -/
opaque readChunkLessOne : Nat
def readChunk : Nat := readChunkLessOne + 1

/-- `TOPIC_TX`, `TOPIC_LOG` and `TOPIC_PRINT` (R130): open byte strings of the host of at most 65535 bytes each
(D27), which the block does not hold. -/
opaque openTopicTx : Bytes
opaque openTopicLog : Bytes
opaque openTopicPrint : Bytes
def topicTx : Bytes := openTopicTx.take 65535
def topicLog : Bytes := openTopicLog.take 65535
def topicPrint : Bytes := openTopicPrint.take 65535

/-- `lossy` (R6, R167): the text the consumer side shows for a topic that is not well-formed UTF-8: open. -/
opaque lossy : Bytes → String

/-- The byte that a cell of an `IN` buffer holds before anything has written it (R33, I15), by the buffer's number, the
construction it stands for, and the offset. -/
opaque freeByte : BufId → Nat → Nat → Byte

/-- What a written cell of an `IN` buffer holds after the length register has been lowered to or below its offset (R33,
I15), by buffer, count of such events, and offset. -/
opaque forgottenByte : BufId → Nat → Nat → Byte

/-- The record registers while `REC_VALID = 0` (R22, R169, I14). -/
opaque freeRecord : Nat → Record

/-- The answers of `env.write` (R51), the receive side (R50, R52) and `env.invoke` (R53) beyond those State lists. -/
opaque freeTx : Nat → Nat
opaque freeLine : Nat → LineEvent
opaque freeInvoke : Nat → InvokeAnswer

end Sys2Proof.Config
end

