-- ==== Sys2Proof/Machine/Bytes.lean ====
section
/-! DEFINITION. Bit fields and byte order: the notation of R7 and the little-endian rule (R46, R47). -/

namespace Sys2Proof.Machine

open Sys2Proof

/-- `lo8(v)`: bits 7 to 0 (R7). -/
def lo8 (v : Half) : Byte := v.extractLsb' 0 8

/-- `hi8(v)`: bits 15 to 8 (R7). -/
def hi8 (v : Half) : Byte := v.extractLsb' 8 8

/-- `le16(n)`: the two bytes of a `u16`, low byte first (R7, R46). -/
def le16 (n : Half) : Bytes := [lo8 n, hi8 n]

/-- `le64(n)`: the eight bytes of a `u64`, low byte first (R7, R46). -/
def le64 (n : NodeId) : Bytes :=
  [n.extractLsb' 0 8, n.extractLsb' 8 8, n.extractLsb' 16 8, n.extractLsb' 24 8,
   n.extractLsb' 32 8, n.extractLsb' 40 8, n.extractLsb' 48 8, n.extractLsb' 56 8]

/-- `from_le(s)`: the sum over `i` of `s[i] << (8*i)` (R7). -/
def fromLe : Bytes → Nat
  | [] => 0
  | b :: rest => b.toNat + 256 * fromLe rest

/-- The `u16` length field of a byte string (R64): its length in bytes, low byte first. -/
def lenField (s : Bytes) : Bytes := le16 (BitVec.ofNat 16 s.length)

/-- `s[off..off+n)` (R7), the value of `MemRead` on a buffer held as a sequence (R45). -/
def slice (s : Bytes) (off n : Nat) : Bytes := (s.drop off).take n

end Sys2Proof.Machine
end

