-- ==== Sys2Proof/Machine/Crc.lean ====
section
/-! DEFINITION. The checksum function (R90, R91). -/

namespace Sys2Proof.Machine

open Sys2Proof

/-- `crc_step(seed, i)`, the three lines of R90 with their widths: `e` and `f` are bytes, the four terms are 16 bits
wide. -/
def crcStep (seed : Half) (i : Byte) : Half :=
  let e : Byte := lo8 seed ^^^ i
  let f : Byte := e ^^^ (e <<< 4)
  let w : Half := f.setWidth 16
  (seed >>> 8) ^^^ ((w <<< 8) ^^^ (w <<< 3)) ^^^ (w >>> 4)

/-- `checksum(seed, bytes)`: the running value after the last byte, taken in order of increasing offset (R91). -/
def checksum (seed : Half) : Bytes → Half
  | [] => seed
  | b :: rest => checksum (crcStep seed b) rest

end Sys2Proof.Machine
end

