-- ==== Sys2Proof/Machine/Stuffing.lean ====
section
/-! DEFINITION. The byte-stuffing encoder as a function (R101 to R104). -/

namespace Sys2Proof.Machine

open Sys2Proof

/-- The delimiter, 0x00 and no other value (R107). -/
def delimiter : Byte := 0x00

/-- The number of pending bytes at which a forced block is emitted (R103). -/
def segmentCap : Nat := 254

/-- A segment under its code byte, `[len + 1] ++ bytes` (R102, R104); a segment of 254 bytes gets 0xFF (R103). -/
def segment (pending : Bytes) : Bytes := BitVec.ofNat 8 (pending.length + 1) :: pending

/-- The scan of R101 over the bytes not yet scanned; `pending` is `b[ss..idx)`. -/
def stuffFrom (pending : Bytes) : Bytes → Bytes
  | [] => segment pending
  | b :: rest =>
    if b = delimiter then segment pending ++ stuffFrom [] rest
    else if pending.length + 1 = segmentCap then segment (pending ++ [b]) ++ stuffFrom [] rest
    else stuffFrom (pending ++ [b]) rest

/-- `stuff(b)` (R101). -/
def stuff (b : Bytes) : Bytes := stuffFrom [] b

/-- The wire image of a frame (R71): the stuffed frame and one delimiter. -/
def wireImage (frame : Bytes) : Bytes := stuff frame ++ [delimiter]

/-- `stuffed_max(n)` (R41), the longest output of `stuff` for `n` input bytes (R105). -/
def stuffedMax (n : Nat) : Nat := n + 1 + n / 254

end Sys2Proof.Machine
end

