-- ==== Sys2Proof/Machine/Layout.lean ====
section
/-! DEFINITION. The frame layouts, written and read (R60 to R69, R116, R123, R160). -/

namespace Sys2Proof.Machine

open Sys2Proof

/-- The `type` byte of a subscribe frame (R61). -/
def typeSubscribe : Byte := 0x03

/-- The `type` byte of a publish frame (R61). -/
def typePublish : Byte := 0x02

/-- The newline a log or print frame ends with (R67). -/
def newline : Byte := 0x0A

/-- An outbound header with the checksum field still zero (R60, R62). -/
def header (type : Byte) : Bytes := [type, 0x00, 0x00, 0x00]

/-- `PUBHDR` (R123). -/
def pubHdr (node : NodeId) : Bytes := header typePublish ++ le64 node ++ [0x01, 0x01]

/-- The frame of BUILD_SUBSCRIBE before FINALIZE (R65, R119). -/
def subscribeFrame (topic : Bytes) : Bytes := header typeSubscribe ++ lenField topic ++ topic

/-- The frame of BUILD_PUBLISH_RAW before FINALIZE (R66, R120). -/
def rawFrame (node : NodeId) (topic : Bytes) (version : Byte) (data : Bytes) : Bytes :=
  pubHdr node ++ lenField topic ++ topic ++ [version] ++ data

/-- The 8 reserved bytes of a log or print frame (R67). -/
def reserved8 : Bytes := List.replicate 8 0x00

/-- The data length field of a log or print frame: the text and the newline (R67). -/
def textField (text : Bytes) : Bytes := le16 (BitVec.ofNat 16 (text.length + 1))

/-- The frame of BUILD_PUBLISH_LOG before FINALIZE (R67, R121). -/
def logFrame (node : NodeId) (topic filename text : Bytes) : Bytes :=
  pubHdr node ++ lenField topic ++ topic ++ reserved8 ++ lenField filename ++ textField text ++ filename ++ text
    ++ [newline]

/-- The frame of BUILD_PUBLISH_PRINT before FINALIZE (R68, R122). -/
def printFrame (node : NodeId) (topic text : Bytes) : Bytes :=
  pubHdr node ++ lenField topic ++ topic ++ reserved8 ++ [0x00, 0x00] ++ textField text ++ text ++ [newline]

/-- A publish frame as it may arrive (R69): every header byte but the type is open (R62, R189), and so are the body's
type and version (R168). -/
def inboundFrame (reserved : Byte) (ck : Half) (node : NodeId) (type version : Byte) (topic data : Bytes) : Bytes :=
  [typePublish, reserved] ++ le16 ck ++ le64 node ++ [type, version] ++ lenField topic ++ topic ++ data

/-- Write the checksum into offsets 2 and 3 (R63). -/
def setChecksum (frame : Bytes) (c : Half) : Bytes := (frame.set 2 (lo8 c)).set 3 (hi8 c)

/-- The frame as FINALIZE leaves it in `FBUF` (R116): the checksum of the frame with its field zero, written into the
field. -/
def finalizeFrame (frame : Bytes) : Bytes := setChecksum frame (checksum Config.frameSeed frame)

/-- PARSE_PUBLISH on a publish body (R160): the two length checks (R161, R163), then the fields (R162, R164 to R166).
`12 + topic_len` is a natural number, so it does not wrap (R163). -/
def parseBody (p : Bytes) : Option Record :=
  if p.length < 12 then none
  else
    let topicLen := fromLe (slice p 10 2)
    let endTopic := 12 + topicLen
    if endTopic > p.length then none
    else
      some
        { nodeId := BitVec.ofNat 64 (fromLe (slice p 0 8))
          type := p.getD 8 0
          version := p.getD 9 0
          topicLen := BitVec.ofNat 16 topicLen
          topic := slice p 12 topicLen
          dataLen := BitVec.ofNat 32 (p.length - endTopic)
          data := p.drop endTopic }

end Sys2Proof.Machine
end

