-- ==== Sys2Proof/Syntax.lean ====
section
/-! DEFINITION. The rows of the opcode table: the eleven commands (R75) and the five frame layouts (R65 to R69). -/

namespace Sys2Proof

/-- A command is its code alone (R74). A frame carries the fields of its layout that the layout does not fix: the
outbound checksum is a function of the rest (R63) and the length fields are the lengths of their byte strings (R64), so
neither is a field; the inbound reserved and checksum bytes are not examined (R62, R189), so they are. -/
inductive Instr where
  | checksum
  | stuff
  | buildSubscribe
  | buildPublishRaw
  | buildPublishLog
  | buildPublishPrint
  | readBurst
  | parsePublish
  | register
  | dispatch
  | poll
  | frameSubscribe (topic : Bytes)
  | framePublishRaw (node : NodeId) (topic : Bytes) (version : Byte) (data : Bytes)
  | framePublishLog (node : NodeId) (topic filename text : Bytes)
  | framePublishPrint (node : NodeId) (topic text : Bytes)
  | framePublishInbound (reserved : Byte) (checksum : Half) (node : NodeId) (type version : Byte) (topic data : Bytes)
deriving DecidableEq, Repr

end Sys2Proof
end

