-- ==== Sys2Proof/WellFormed.lean ====
section
/-! DEFINITION. Which instructions have an encoding: every length fits its `u16` field (R64, R72). -/

namespace Sys2Proof

/-- The largest value of a `u16` length field. -/
def maxField : Nat := 65535

/-- The checks: a topic and a filename have at most 65535 bytes, a text at most 65534, since its field counts the newline
too (R72). A command has no operand field (R74) and a raw publish's data no length field (R66). -/
def Instr.wellFormed : Instr → Bool
  | .checksum => true
  | .stuff => true
  | .buildSubscribe => true
  | .buildPublishRaw => true
  | .buildPublishLog => true
  | .buildPublishPrint => true
  | .readBurst => true
  | .parsePublish => true
  | .register => true
  | .dispatch => true
  | .poll => true
  | .frameSubscribe topic => decide (topic.length ≤ maxField)
  | .framePublishRaw _ topic _ _ => decide (topic.length ≤ maxField)
  | .framePublishLog _ topic filename text =>
    decide (topic.length ≤ maxField) && decide (filename.length ≤ maxField) && decide (text.length + 1 ≤ maxField)
  | .framePublishPrint _ topic text => decide (topic.length ≤ maxField) && decide (text.length + 1 ≤ maxField)
  | .framePublishInbound _ _ _ _ _ topic _ => decide (topic.length ≤ maxField)

end Sys2Proof
end

