-- ==== Sys2Proof/Decode.lean ====
section
/-! DEFINITION. The decoder, total on any bytes and refusing by name, and after it the encoder. A command code and a
frame are two encodings read in two places (R74, R60), and the publish layouts cannot be told apart by their header
(R61), so the decoder is told by which encoding table to read. -/

namespace Sys2Proof

open Sys2Proof.Machine

/-- Why bytes are no instruction of the table asked for. -/
inductive DecodeError where
  /-- a code R76 leaves unassigned -/
  | unassigned (code : Byte)
  /-- a command is one byte (R74) -/
  | notOneByte
  /-- fewer bytes than the layout's fixed fields -/
  | tooShort
  /-- the type byte is another (R61, R73) -/
  | badType
  /-- an outbound reserved byte is not zero (R62, R67) -/
  | badReserved
  /-- the two constant bytes of an outbound publish body are not 0x01 (R66) -/
  | badConstant
  /-- a length field exceeds the bytes that follow it (R69) -/
  | overrun
  /-- the lengths of a log or print frame do not add up to its length (R67) -/
  | badLength
  /-- a print frame with a filename (R68) -/
  | hasFilename
  /-- a log or print frame that does not end in 0x0A (R67) -/
  | noNewline
  /-- the checksum field of an outbound frame is not the checksum (R63) -/
  | badChecksum
deriving DecidableEq, Repr

/-- The encoding tables: the command codes (R75) and the five layouts (R65 to R69). -/
inductive Table where
  | command
  | subscribe
  | publishRaw
  | publishLog
  | publishPrint
  | publishInbound
deriving DecidableEq, Repr

/-- The command a code written to `CMD` selects (R75, R76). -/
def decodeCommand (code : Byte) : Except DecodeError Instr :=
  if code = 0x01 then .ok .checksum
  else if code = 0x02 then .ok .stuff
  else if code = 0x10 then .ok .buildSubscribe
  else if code = 0x11 then .ok .buildPublishRaw
  else if code = 0x12 then .ok .buildPublishLog
  else if code = 0x13 then .ok .buildPublishPrint
  else if code = 0x20 then .ok .readBurst
  else if code = 0x21 then .ok .parsePublish
  else if code = 0x30 then .ok .register
  else if code = 0x31 then .ok .dispatch
  else if code = 0x32 then .ok .poll
  else .error (.unassigned code)

/-- Does the checksum field of an outbound frame hold its checksum (R63, R125)? -/
def checksumHolds (bytes : Bytes) : Bool :=
  decide (slice bytes 2 2 = le16 (checksum Config.frameSeed (setChecksum bytes 0)))

/-- Split off a `u16` length field at offset `off` and the byte string right after it (R64): the string and the rest. -/
def takeCounted (bytes : Bytes) (off : Nat) : Except DecodeError (Bytes × Bytes) :=
  if bytes.length < off + 2 then .error .tooShort
  else
    let n := fromLe (slice bytes off 2)
    if bytes.length < off + 2 + n then .error .overrun
    else .ok (slice bytes (off + 2) n, bytes.drop (off + 2 + n))

/-- A subscribe frame (R65). -/
def decodeSubscribe (bytes : Bytes) : Except DecodeError Instr :=
  if bytes.length < 6 then .error .tooShort
  else if bytes.getD 0 0 ≠ typeSubscribe then .error .badType
  else if bytes.getD 1 0 ≠ 0 then .error .badReserved
  else if !checksumHolds bytes then .error .badChecksum
  else do
    let (topic, rest) ← takeCounted bytes 4
    if rest ≠ [] then .error .badLength else .ok (.frameSubscribe topic)

/-- What the three outbound publish layouts share (R66, R67): node identity, topic, and the bytes after the topic. -/
def decodePublishHead (bytes : Bytes) : Except DecodeError (NodeId × Bytes × Bytes) :=
  if bytes.length < 16 then .error .tooShort
  else if bytes.getD 0 0 ≠ typePublish then .error .badType
  else if bytes.getD 1 0 ≠ 0 then .error .badReserved
  else if slice bytes 12 2 ≠ [0x01, 0x01] then .error .badConstant
  else if !checksumHolds bytes then .error .badChecksum
  else do
    let (topic, rest) ← takeCounted bytes 14
    .ok (BitVec.ofNat 64 (fromLe (slice bytes 4 8)), topic, rest)

/-- A raw publish frame (R66). -/
def decodeRaw (bytes : Bytes) : Except DecodeError Instr := do
  let (node, topic, rest) ← decodePublishHead bytes
  match rest with
  | [] => .error .tooShort
  | version :: data => .ok (.framePublishRaw node topic version data)

/-- What follows the topic of a log or print frame (R67): the filename and the text. -/
def decodeTextTail (rest : Bytes) : Except DecodeError (Bytes × Bytes) :=
  if rest.length < 13 then .error .tooShort
  else if rest.take 8 ≠ reserved8 then .error .badReserved
  else
    let f := fromLe (slice rest 8 2)
    let x := fromLe (slice rest 10 2)
    if rest.length ≠ 12 + f + x ∨ x = 0 then .error .badLength
    else if rest.drop (12 + f + (x - 1)) ≠ [newline] then .error .noNewline
    else .ok (slice rest 12 f, slice rest (12 + f) (x - 1))

/-- A log frame (R67). -/
def decodeLog (bytes : Bytes) : Except DecodeError Instr := do
  let (node, topic, rest) ← decodePublishHead bytes
  let (filename, text) ← decodeTextTail rest
  .ok (.framePublishLog node topic filename text)

/-- A print frame (R68): a log frame whose filename length is 0. -/
def decodePrint (bytes : Bytes) : Except DecodeError Instr := do
  let (node, topic, rest) ← decodePublishHead bytes
  let (filename, text) ← decodeTextTail rest
  if filename ≠ [] then .error .hasFilename else .ok (.framePublishPrint node topic text)

/-- A publish frame as the block reads it from a burst (R69, R73, R187, R188). -/
def decodeInbound (bytes : Bytes) : Except DecodeError Instr :=
  if bytes.length < 4 then .error .tooShort
  else if bytes.getD 0 0 ≠ typePublish then .error .badType
  else if bytes.length < 16 then .error .tooShort
  else
    match parseBody (bytes.drop 4) with
    | none => .error .overrun
    | some r =>
      .ok (.framePublishInbound (bytes.getD 1 0) (BitVec.ofNat 16 (fromLe (slice bytes 2 2))) r.nodeId r.type r.version
        r.topic r.data)

/-- The instruction the bytes encode by one of the tables. -/
def decode (t : Table) (bytes : Bytes) : Except DecodeError Instr :=
  match t with
  | .command =>
    match bytes with
    | [code] => decodeCommand code
    | _ => .error .notOneByte
  | .subscribe => decodeSubscribe bytes
  | .publishRaw => decodeRaw bytes
  | .publishLog => decodeLog bytes
  | .publishPrint => decodePrint bytes
  | .publishInbound => decodeInbound bytes

/-- The table an instruction is encoded by. -/
def tableOf : Instr → Table
  | .checksum => .command
  | .stuff => .command
  | .buildSubscribe => .command
  | .buildPublishRaw => .command
  | .buildPublishLog => .command
  | .buildPublishPrint => .command
  | .readBurst => .command
  | .parsePublish => .command
  | .register => .command
  | .dispatch => .command
  | .poll => .command
  | .frameSubscribe _ => .subscribe
  | .framePublishRaw _ _ _ _ => .publishRaw
  | .framePublishLog _ _ _ _ => .publishLog
  | .framePublishPrint _ _ _ => .publishPrint
  | .framePublishInbound _ _ _ _ _ _ _ => .publishInbound

/-- The bytes of a well-formed instruction: the code of R75, or the frame of R65 to R69 (an outbound one with its
checksum written, R63). -/
def encode : Instr → Bytes
  | .checksum => [0x01]
  | .stuff => [0x02]
  | .buildSubscribe => [0x10]
  | .buildPublishRaw => [0x11]
  | .buildPublishLog => [0x12]
  | .buildPublishPrint => [0x13]
  | .readBurst => [0x20]
  | .parsePublish => [0x21]
  | .register => [0x30]
  | .dispatch => [0x31]
  | .poll => [0x32]
  | .frameSubscribe topic => finalizeFrame (subscribeFrame topic)
  | .framePublishRaw node topic version data => finalizeFrame (rawFrame node topic version data)
  | .framePublishLog node topic filename text => finalizeFrame (logFrame node topic filename text)
  | .framePublishPrint node topic text => finalizeFrame (printFrame node topic text)
  | .framePublishInbound reserved ck node type version topic data =>
    inboundFrame reserved ck node type version topic data

/-- How many bytes an instruction's encoding has (R74, R65 to R69, R124). -/
def encodedLength : Instr → Nat
  | .checksum => 1
  | .stuff => 1
  | .buildSubscribe => 1
  | .buildPublishRaw => 1
  | .buildPublishLog => 1
  | .buildPublishPrint => 1
  | .readBurst => 1
  | .parsePublish => 1
  | .register => 1
  | .dispatch => 1
  | .poll => 1
  | .frameSubscribe topic => 6 + topic.length
  | .framePublishRaw _ topic _ data => 17 + topic.length + data.length
  | .framePublishLog _ topic filename text => 29 + topic.length + filename.length + text.length
  | .framePublishPrint _ topic text => 29 + topic.length + text.length
  | .framePublishInbound _ _ _ _ _ topic data => 16 + topic.length + data.length

/-- The instruction the block reads from a table word. Where the block fetches is `CMD`, one byte wide (R13, R74), so the
word's byte is read as a command code; the frame rows of the table share the values 0x02 and 0x03 with command codes and
are never written to `CMD`. -/
def decodeTableWord (nbits w : Nat) : Option Instr :=
  if nbits = 8 then
    match decode .command [BitVec.ofNat 8 w] with
    | .ok i => some i
    | .error _ => none
  else none

end Sys2Proof
end

