-- ==== Sys2Proof/Machine/State.lean ====
section
/-! DEFINITION. The state of the block, its reasons to stop, and the state after reset (R10 to R33). -/

namespace Sys2Proof.Machine

open Sys2Proof

/-- A number of ticks of the monotonic clock (R141). -/
abbrev Ticks := BitVec Config.timeW

/-- A byte-addressed memory: the cells something has written, in one canonical form (`Memory.wf`). A cell not listed
holds no value of its own; `InBuf.byteAt` says what it reads as. -/
abbrev Memory := List Host.Cell

/-- The canonical form: strictly rising addresses. No value is that of an unlisted cell, so equal memories are equal
lists. -/
abbrev Memory.wf (m : Memory) : Prop := m.Pairwise (fun x y => x.1 < y.1)

/-- An operand buffer `INk` and its length register (R23): the cells written so far, which may lie at or beyond the
length (R45), and the number of the construction since which unwritten cells are unspecified (R33). -/
structure InBuf where
  len : Nat
  mem : Memory
  era : Nat
deriving DecidableEq, Repr

/-- The link reader while it runs (R28 (c), R142, R144): whether POLL or READ_BURST runs it, the idle clock, the
accumulator and its overflow mark. -/
structure Reading where
  forPoll : Bool
  idle : Ticks
  acc : Bytes
  ovf : Bool
deriving DecidableEq, Repr

/-- What the block is doing: it waits for a command (`BUSY = 0`), or the link reader of a READ_BURST or POLL runs
(`BUSY = 1`), the one wait in the block (R13, R151). -/
inductive Activity where
  | ready
  | reading (r : Reading)
deriving DecidableEq, Repr

/-- How many free values of each kind have been drawn. The model's own. -/
structure FreeCount where
  line : Nat
  tx : Nat
  invoke : Nat
  record : Nat
  cell : Nat
deriving DecidableEq, Repr

/-- The state. The fields down to `activity` are the block's (R10 to R30); `txTrace` and `cbTrace` are the histories of
R31; the rest is the model's own: the surroundings yet to come, what the host was last answered, and the counts of free
values. -/
structure State where
  /-- the construction parameters (R6) -/
  params : Params
  /-- `NODE_ID` (R12) -/
  nodeId : NodeId
  /-- `CMD`: the last code the host wrote that was not refused (R13) -/
  cmd : Byte
  /-- `STATUS` (R14) -/
  status : Byte
  /-- `INFO` (R14) -/
  info : Word
  /-- `SEED` (R15) -/
  seed : Half
  /-- `CRC` (R15) -/
  crc : Half
  /-- `VER` (R16) -/
  ver : Byte
  /-- `HANDLE` (R17) -/
  handle : Handle
  /-- `IDLE_TIMEOUT` (R18) -/
  idleTimeout : Ticks
  /-- `TX_COUNT` (R19) -/
  txCount : Word
  /-- `REGY[0]` to `REGY[REG_COUNT-1]` (R20); its length is `REG_COUNT` -/
  regy : List Handle
  /-- `DISPATCHED` (R21) -/
  dispatched : Word
  /-- `REC_VALID` (R22) -/
  recValid : Bool
  /-- the seven record registers (R22) -/
  record : Record
  /-- `RX_OVF` (R27) -/
  rxOvf : Bool
  /-- `IN0` and `IN0_LEN` (R23) -/
  in0 : InBuf
  /-- `IN1` and `IN1_LEN` (R23) -/
  in1 : InBuf
  /-- `IN2` and `IN2_LEN` (R23) -/
  in2 : InBuf
  /-- `OUT`; its length is `OUT_LEN` (R24) -/
  out : Bytes
  /-- `FBUF`; its length is `FBUF_LEN` (R25) -/
  fbuf : Bytes
  /-- `TXBUF`; its length is `TXBUF_LEN` (R26) -/
  txbuf : Bytes
  /-- `ACC`; its length is `ACC_LEN` (R27) -/
  acc : Bytes
  /-- `BUSY` and the local state of the running link reader (R13, R28) -/
  activity : Activity
  /-- `TXTRACE` (R31) -/
  txTrace : Bytes
  /-- `CBTRACE` (R31) -/
  cbTrace : List CbItem
  /-- the events to come, in order (R54) -/
  inputs : List Input
  /-- the answers of `env.write` to come (R51); after them `Config.freeTx` -/
  txAnswers : List Nat
  /-- the answers of `env.invoke` to come (R53); after them `Config.freeInvoke` -/
  consumers : List InvokeAnswer
  /-- the answer to the last host access -/
  reply : HostReply
  /-- the codes refused with `ERR_BUSY`, in order (R217) -/
  busyTrace : Bytes
  /-- the free values drawn so far -/
  free : FreeCount
deriving DecidableEq, Repr

/-- Why the machine stops. The block itself has no fault mechanism (R209): this one ends a run of the MODEL at a host
write to an offset the spec says does not exist (R40, R41), for which R45 defines no effect. -/
inductive Fault where
  /-- Raised by a host `MemWrite` to an `IN` buffer that is not within its capacity (R45). Safe: the model stops where the
  spec gives no effect. -/
  | writeOutside (buf : BufId) (off n : Nat)
deriving DecidableEq, Repr

/-- Why the model has no meaning for an instruction. -/
inductive Refusal where
  /-- Raised by an arm of `exec` for an instruction the model does not cover; no arm raises it. Safe. -/
  | notModelled (mnemonic : String)
deriving DecidableEq, Repr

/-- An `IN` buffer after construction: empty, its cells unspecified (R33). -/
def InBuf.fresh (era : Nat) : InBuf := { len := 0, mem := [], era := era }

/-- The record registers after construction. R33 leaves them unspecified and unreadable; zero is the model's choice
(assumption 5). -/
def Record.zero : Record :=
  { nodeId := 0, type := 0, version := 0, topicLen := 0, topic := [], dataLen := 0, data := [] }

/-- The block as constructed with these parameters (R33, R230); `era` numbers the construction. -/
def State.construct (p : Params) (node : NodeId) (era : Nat) : State :=
  { params := p
    nodeId := node
    cmd := 0
    status := 0
    info := 0
    seed := 0
    crc := 0
    ver := 0
    handle := 0
    idleTimeout := 0
    txCount := 0
    regy := []
    dispatched := 0
    recValid := false
    record := Record.zero
    rxOvf := false
    in0 := InBuf.fresh era
    in1 := InBuf.fresh era
    in2 := InBuf.fresh era
    out := []
    fbuf := []
    txbuf := []
    acc := []
    activity := .ready
    txTrace := []
    cbTrace := []
    inputs := []
    txAnswers := []
    consumers := []
    reply := .idle
    busyTrace := []
    free := { line := 0, tx := 0, invoke := 0, record := 0, cell := 0 } }

/-- The block right after reset (R33), with the open construction parameters of R6. -/
def State.reset : State := State.construct Config.params Config.nodeId 0

end Sys2Proof.Machine
end

