-- ==== Sys2Proof/Machine/Ops.lean ====
section
/-! DEFINITION. The named operations over the block's memory and registers, and the one way a command ends. -/

namespace Sys2Proof.Machine

open Sys2Proof

/-- The cell at an address, if something has written it. -/
def Memory.read? (m : Memory) (a : Nat) : Option Byte :=
  match m with
  | [] => none
  | c :: rest => if c.1 = a then some c.2 else Memory.read? rest a

/-- Write one byte, keeping the addresses strictly rising. -/
def Memory.write (m : Memory) (a : Nat) (b : Byte) : Memory :=
  match m with
  | [] => [(a, b)]
  | c :: rest =>
    if a < c.1 then (a, b) :: c :: rest
    else if a = c.1 then (a, b) :: rest
    else c :: Memory.write rest a b

/-- `MemWrite` (R45): the bytes go to rising addresses from `off` on. -/
def Memory.writeAll (m : Memory) (off : Nat) : Bytes → Memory
  | [] => m
  | b :: rest => Memory.writeAll (m.write off b) (off + 1) rest

/-- The written cells at or beyond `from_` hold unspecified values from now on (R33, I15): free values number `k`. -/
def Memory.forget (m : Memory) (id : BufId) (k from_ : Nat) : Memory :=
  m.map (fun c => if from_ ≤ c.1 then (c.1, Config.forgottenByte id k c.1) else c)

/-- What the cell at an offset reads as: the byte written there, or the free value of an unwritten cell (R33). Reading
changes nothing and is idempotent (R45). -/
def InBuf.byteAt (b : InBuf) (id : BufId) (off : Nat) : Byte :=
  (b.mem.read? off).getD (Config.freeByte id b.era off)

/-- The `len` bytes of the buffer (R23), `MemRead` of the whole of it. -/
def InBuf.bytes (b : InBuf) (id : BufId) : Bytes := (List.range b.len).map (b.byteAt id)

/-- The content of a buffer, as far as its length register reaches (R40). -/
def State.buffer (s : State) : BufId → Bytes
  | .in0 => s.in0.bytes .in0
  | .in1 => s.in1.bytes .in1
  | .in2 => s.in2.bytes .in2
  | .out => s.out
  | .fbuf => s.fbuf
  | .txbuf => s.txbuf
  | .acc => s.acc
  | .recTopic => s.record.topic
  | .recData => s.record.data

/-- Does a length fit a capacity (R41)? -/
def fits (capacity : Option Nat) (n : Nat) : Bool :=
  match capacity with
  | none => true
  | some m => decide (n ≤ m)

/-- The code of a result (R77). -/
def Status.code : Status → Byte
  | .ok => 0x00
  | .errRx => 0x01
  | .errTxShort => 0x02
  | .errLength => 0x03
  | .errFull => 0x04
  | .errBusy => 0x05
  | .errCmd => 0x06
  | .errNoRec => 0x07

/-- The last action of every command: `STATUS` and `INFO` (R14). -/
def State.finish (s : State) (st : Status) (info : Nat) : State :=
  { s with status := st.code, info := BitVec.ofNat 32 info }

/-- The command ends well: `STATUS <- OK`, `INFO <- 0`. -/
def State.done (s : State) : State := s.finish .ok 0

/-- `raise` (R7, R206). This is all an exception does here: there is no handler, no saved state, no mode and no return
(R209); the command ends and the host reads the value. -/
def State.raise (s : State) (st : Status) (info : Nat) : State := s.finish st info

/-- `BUSY` (R13). -/
def State.busy (s : State) : Bool :=
  match s.activity with
  | .ready => false
  | .reading _ => true

/-- `REC_VALID <- 0`; the record registers hold no defined value (R22, R169): a free one. -/
def State.dropRecord (s : State) : State :=
  { s with recValid := false, record := Config.freeRecord s.free.record,
           free := { s.free with record := s.free.record + 1 } }

/-- `REC_VALID <- 1` and the record registers (R160). -/
def State.setRecord (s : State) (r : Record) : State := { s with recValid := true, record := r }

/-- The next answer of `env.write`, before it is cut to what was offered (R51). -/
def State.txAnswer (s : State) : Nat :=
  match s.txAnswers with
  | n :: _ => n
  | [] => Config.freeTx s.free.tx

/-- The state after that answer has been taken. -/
def State.dropTxAnswer (s : State) : State :=
  match s.txAnswers with
  | _ :: rest => { s with txAnswers := rest }
  | [] => { s with free := { s.free with tx := s.free.tx + 1 } }

/-- The next answer of `env.invoke` (R53). -/
def State.invokeAnswer (s : State) : InvokeAnswer :=
  match s.consumers with
  | a :: _ => a
  | [] => Config.freeInvoke s.free.invoke

/-- The state after that answer has been taken. -/
def State.dropInvokeAnswer (s : State) : State :=
  match s.consumers with
  | _ :: rest => { s with consumers := rest }
  | [] => { s with free := { s.free with invoke := s.free.invoke + 1 } }

/-- Reset (R230): the block is constructed anew, with the parameters it was built with and this `NODE_ID` parameter; a
running command is abandoned. What belongs to the environment stays: the events and answers to come. -/
def State.resetBlock (s : State) (node : NodeId) : State :=
  { State.construct s.params node (s.free.cell + 1) with
    inputs := s.inputs
    txAnswers := s.txAnswers
    consumers := s.consumers
    reply := .done
    free := { s.free with cell := s.free.cell + 1 } }

end Sys2Proof.Machine
end

