-- ==== Sys2Proof/Machine/Operands.lean ====
section
/-! DEFINITION. The operand forms: a command has no operand field (R74), its operands stand in the registers and buffers
its rule names (R23, R75). -/

namespace Sys2Proof.Machine

open Sys2Proof

/-- `IN0[0..IN0_LEN)`: `bytes` of CHECKSUM and STUFF, `frame_bytes` of PARSE_PUBLISH, `topic` of the builders (R23). -/
def State.in0Bytes (s : State) : Bytes := s.buffer .in0

/-- `IN1[0..IN1_LEN)`: `data` of BUILD_PUBLISH_RAW, `filename` of BUILD_PUBLISH_LOG (R23). -/
def State.in1Bytes (s : State) : Bytes := s.buffer .in1

/-- `IN2[0..IN2_LEN)`: `text` of BUILD_PUBLISH_LOG and BUILD_PUBLISH_PRINT (R23). -/
def State.in2Bytes (s : State) : Bytes := s.buffer .in2

/-- The first length among `operands` that exceeds its limit, in order, else the total if it exceeds `FRAME_MAX`: the
length that `ERR_LENGTH` reports (R118). -/
def lengthCheck (frameMax : Option Nat) (operands : List (Nat × Nat)) (total : Nat) : Option Nat :=
  match operands with
  | [] => if fits frameMax total then none else some total
  | (len, limit) :: rest => if limit < len then some len else lengthCheck frameMax rest total

end Sys2Proof.Machine
end

