-- ==== Sys2Proof/Machine/ChecksumEngine.lean ====
section
/-! DEFINITION. CHECKSUM (R91). -/

namespace Sys2Proof.Machine

open Sys2Proof

/-- CHECKSUM (R91): `CRC <- checksum(SEED, IN0)`; `SEED` is not written. -/
def execChecksum (s : State) : Host.Outcome State Fault Refusal :=
  .next { s with crc := checksum s.seed s.in0Bytes }.done

end Sys2Proof.Machine
end

