-- ==== Sys2Proof/Machine/PublishParser.lean ====
section
/-! DEFINITION. PARSE_PUBLISH (R160). -/

namespace Sys2Proof.Machine

open Sys2Proof

/-- The parser's result in the record registers (R160, R169), without `STATUS`. -/
def State.storeParse (s : State) (body : Bytes) : State :=
  match parseBody body with
  | none => s.dropRecord
  | some r => s.setRecord r

/-- PARSE_PUBLISH (R160): malformed input is no error (R201). -/
def execParsePublish (s : State) : Host.Outcome State Fault Refusal := .next (s.storeParse s.in0Bytes).done

end Sys2Proof.Machine
end

