-- ==== Sys2Proof/Machine/Dispatcher.lean ====
section
/-! DEFINITION. The registry and the dispatcher: REGISTER and DISPATCH (R175 to R185), and what POLL does with a burst
(R186 to R190). -/

namespace Sys2Proof.Machine

open Sys2Proof

/-- The registry after REGISTER, and `STATUS` (R177): the scan for a duplicate comes before the check for a full
registry (R179). -/
def State.enroll (s : State) : State :=
  if s.handle ∈ s.regy then s.done
  else if s.params.maxConsumers = some s.regy.length then s.raise .errFull s.regy.length
  else { s with regy := s.regy ++ [s.handle] }.done

/-- REGISTER (R177). -/
def execRegister (s : State) : Host.Outcome State Fault Refusal := .next s.enroll

/-- One `env.invoke` (R181): its item goes to `CBTRACE` whatever the outcome (R183), and each command the consumer tries
to issue is refused with `ERR_BUSY` and nothing else (R185). -/
def State.invoke (s : State) (h : Handle) : State :=
  let a := s.invokeAnswer
  { s.dropInvokeAnswer with
    cbTrace := s.cbTrace ++ [{ handle := h, record := s.record, outcome := a.outcome }]
    busyTrace := s.busyTrace ++ a.cmdWrites }

/-- The loop of R181 over the handles registered when it starts, in registration order (R182). -/
def State.invokeAll (s : State) : List Handle → State
  | [] => s
  | h :: rest => (s.invoke h).invokeAll rest

/-- DISPATCH on a valid record, without `STATUS` (R181). -/
def State.dispatchAll (s : State) : State :=
  { s.invokeAll s.regy with dispatched := BitVec.ofNat 32 s.regy.length }

/-- DISPATCH (R181): with no record, nobody is invoked. -/
def execDispatch (s : State) : Host.Outcome State Fault Refusal :=
  .next (if s.recValid then s.dispatchAll.done else { s with dispatched := 0 }.raise .errNoRec 0)

/-- The first action of POLL (R186); the record registers hold no defined value from here on (R22). -/
def State.startPoll (s : State) : State := { s.dropRecord with dispatched := 0 }

/-- What POLL does with the burst in `ACC` (R186): the overflow, length and type checks (R187), the parser on everything
after the header (R188), and the dispatch. No checksum is looked at (R189), and every path ends with `OK` (R190). -/
def State.handleBurst (s : State) : State :=
  if s.rxOvf then s.done
  else if s.acc.length < 4 then s.done
  else if s.acc.getD 0 0 ≠ typePublish then s.done
  else
    let s := s.storeParse (s.acc.drop 4)
    if s.recValid then s.dispatchAll.done else s.done

end Sys2Proof.Machine
end

