-- ==== Sys2Proof/Machine/FrameBuilder.lean ====
section
/-! DEFINITION. The frame builder: FINALIZE, the write, and the four BUILD commands (R115 to R124). -/

namespace Sys2Proof.Machine

open Sys2Proof

/-- The length check of a subscribe frame (R118, R124). -/
def subscribeCheck (frameMax : Option Nat) (t : Nat) : Option Nat := lengthCheck frameMax [(t, 65535)] (6 + t)

/-- The length check of a raw publish frame (R118, R124). -/
def rawCheck (frameMax : Option Nat) (t d : Nat) : Option Nat := lengthCheck frameMax [(t, 65535)] (17 + t + d)

/-- The length check of a log frame: topic, filename, text, total, in this order (R118, R207). `X + 1 > 65535` is
`X > 65534`. -/
def logCheck (frameMax : Option Nat) (t f x : Nat) : Option Nat :=
  lengthCheck frameMax [(t, 65535), (f, 65535), (x, 65534)] (29 + t + f + x)

/-- The length check of a print frame (R118, R124). -/
def printCheck (frameMax : Option Nat) (t x : Nat) : Option Nat :=
  lengthCheck frameMax [(t, 65535), (x, 65534)] (29 + t + x)

/-- Steps 2 and 3 of R115: the frame into `FBUF`, then FINALIZE (R116), which writes its checksum and makes `TXBUF`.
`SEED` and `CRC` are not used. -/
def State.assemble (s : State) (frame : Bytes) : State :=
  { s with fbuf := finalizeFrame frame, txbuf := wireImage (finalizeFrame frame) }

/-- Steps 4 and 5 of R115: one `env.write` of the whole wire image (R117). The environment's answer is a count of at most
what was offered (R51). -/
def State.transmit (s : State) : State :=
  let n := min s.txAnswer s.txbuf.length
  let t := { s.dropTxAnswer with txCount := BitVec.ofNat 32 n, txTrace := s.txTrace ++ s.txbuf.take n }
  if n = s.txbuf.length then t.done else t.raise .errTxShort n

/-- Steps 1 to 3 of R115: the frame is refused before anything is written (R118), or assembled. -/
def State.prepare (s : State) (check : Option Nat) (frame : Bytes) : State :=
  match check with
  | some len => s.raise .errLength len
  | none => s.assemble frame

/-- The five steps of every builder command (R115). -/
def State.build (s : State) (check : Option Nat) (frame : Bytes) : State :=
  match check with
  | some len => s.raise .errLength len
  | none => (s.assemble frame).transmit

/-- BUILD_SUBSCRIBE (R119). -/
def execBuildSubscribe (s : State) : Host.Outcome State Fault Refusal :=
  .next (s.build (subscribeCheck s.params.frameMax s.in0.len) (subscribeFrame s.in0Bytes))

/-- BUILD_PUBLISH_RAW (R120); the node identity is the register's (R123). -/
def execBuildPublishRaw (s : State) : Host.Outcome State Fault Refusal :=
  .next (s.build (rawCheck s.params.frameMax s.in0.len s.in1.len) (rawFrame s.nodeId s.in0Bytes s.ver s.in1Bytes))

/-- BUILD_PUBLISH_LOG (R121). -/
def execBuildPublishLog (s : State) : Host.Outcome State Fault Refusal :=
  .next (s.build (logCheck s.params.frameMax s.in0.len s.in1.len s.in2.len)
    (logFrame s.nodeId s.in0Bytes s.in1Bytes s.in2Bytes))

/-- BUILD_PUBLISH_PRINT (R122); `IN1` is not read. -/
def execBuildPublishPrint (s : State) : Host.Outcome State Fault Refusal :=
  .next (s.build (printCheck s.params.frameMax s.in0.len s.in2.len) (printFrame s.nodeId s.in0Bytes s.in2Bytes))

end Sys2Proof.Machine
end

