-- ==== Sys2Proof/Machine/LinkReader.lean ====
section
/-! DEFINITION. The link reader: READ_BURST (R140 to R154), and POLL, which runs it (R186). -/

namespace Sys2Proof.Machine

open Sys2Proof

/-- Append one byte to the accumulator, or drop it and mark the overflow when `RX_MAX` bytes are held (R148). -/
def Reading.accept (rxMax : Option Nat) (r : Reading) (b : Byte) : Reading :=
  if fits rxMax (r.acc.length + 1) then { r with acc := r.acc ++ [b] } else { r with ovf := true }

/-- Append bytes in arrival order (R57). -/
def Reading.acceptAll (rxMax : Option Nat) (r : Reading) : Bytes → Reading
  | [] => r
  | b :: rest => Reading.acceptAll rxMax (r.accept rxMax b) rest

/-- What one iteration comes to. -/
inductive ReadStep where
  | going (r : Reading)
  | finished (r : Reading)
  | failed
deriving DecidableEq, Repr

/-- No byte arrived: the idle clock advances, and the burst ends when it has EXCEEDED the timeout (R145). The sum is a
natural number; while the reader goes on it is at most `IDLE_TIMEOUT`, so it fits `TIME_W` bits (R141, R212). -/
def Reading.wait (timeout : Ticks) (r : Reading) (elapsed : Nat) : ReadStep :=
  let idle := r.idle.toNat + elapsed
  if timeout.toNat < idle then .finished r else .going { r with idle := BitVec.ofNat Config.timeW idle }

/-- Bytes arrived: they are appended and the idle clock restarts (R142). An empty sequence counts as none (R50). -/
def Reading.arrive (rxMax : Option Nat) (timeout : Ticks) (r : Reading) (s : Bytes) (elapsed : Nat) : ReadStep :=
  match s with
  | [] => r.wait timeout elapsed
  | b :: rest => .going { r.acceptAll rxMax (b :: rest) with idle := 0 }

/-- One iteration of the loop, in the hardware form (R144; a byte is tested before a failure, R207) or in the source's
(R142). -/
def Reading.advance (rxMax : Option Nat) (timeout : Ticks) (r : Reading) : LineEvent → ReadStep
  | .tick (some b) _ => r.arrive rxMax timeout [b] 1
  | .tick none true => .failed
  | .tick none false => r.wait timeout 1
  | .poll (.chunk s) elapsed => r.arrive rxMax timeout s elapsed
  | .poll .fail _ => .failed
  | .poll .nothing elapsed => r.wait timeout elapsed

/-- The burst is complete: `ACC` and `RX_OVF`; READ_BURST is then done (R142), POLL goes on with the burst (R186). -/
def State.endReading (s : State) (r : Reading) : State :=
  let s := { s with acc := r.acc, rxOvf := r.ovf, activity := .ready }
  if r.forPoll then s.handleBurst else s.done

/-- The read failed: the bytes gathered so far are discarded (R149, R190). -/
def State.failReading (s : State) : State :=
  { s with acc := [], rxOvf := false, activity := .ready }.raise .errRx 0

/-- The state after one iteration of the running reader. -/
def State.readerStep (s : State) (r : Reading) (e : LineEvent) : State :=
  match r.advance s.params.rxMax s.idleTimeout e with
  | .going r' => { s with activity := .reading r' }
  | .finished r' => s.endReading r'
  | .failed => s.failReading

/-- Run the reader over the events at the head of the given ones, up to the end of the command or the first event that is
not the line's; if the command has not ended by then it stays busy (R151, R153). -/
def State.drain (s : State) (r : Reading) : List Input → State
  | .line e :: rest =>
    match r.advance s.params.rxMax s.idleTimeout e with
    | .going r' => s.drain r' rest
    | .finished r' => { s with inputs := rest }.endReading r'
    | .failed => { s with inputs := rest }.failReading
  | rest => { s with inputs := rest, activity := .reading r }

/-- The reader at the start of a command: an empty accumulator and an idle clock that runs from the start (R147, R148). -/
def Reading.start (forPoll : Bool) : Reading := { forPoll := forPoll, idle := 0, acc := [], ovf := false }

/-- READ_BURST (R140). -/
def execReadBurst (s : State) : Host.Outcome State Fault Refusal := .next (s.drain (Reading.start false) s.inputs)

/-- POLL (R186). -/
def execPoll (s : State) : Host.Outcome State Fault Refusal :=
  .next (s.startPoll.drain (Reading.start true) s.inputs)

end Sys2Proof.Machine
end

