-- ==== Sys2Proof/Machine/StuffingEncoder.lean ====
section
/-! DEFINITION. STUFF (R100). -/

namespace Sys2Proof.Machine

open Sys2Proof

/-- STUFF (R100): `OUT <- stuff(IN0)`, without a delimiter; the frame and wire buffers are not touched (R110). -/
def execStuff (s : State) : Host.Outcome State Fault Refusal :=
  .next { s with out := stuff s.in0Bytes }.done

end Sys2Proof.Machine
end

