-- ==== Sys2Proof/Machine/WireFrames.lean ====
section
/-! DEFINITION. The frame rows of the table (R65 to R69). A frame is no command; its meaning is what the block does with a
frame of that layout and those fields: an outbound one is prepared in `FBUF` and `TXBUF` (R115, steps 1 to 3), an inbound
one is handled as the burst of a POLL (R186). See assumption 2. -/

namespace Sys2Proof.Machine

open Sys2Proof

/-- A subscribe frame (R65). -/
def execFrameSubscribe (topic : Bytes) (s : State) : Host.Outcome State Fault Refusal :=
  .next (s.prepare (subscribeCheck s.params.frameMax topic.length) (subscribeFrame topic))

/-- A raw publish frame (R66). -/
def execFramePublishRaw (node : NodeId) (topic : Bytes) (version : Byte) (data : Bytes) (s : State) :
    Host.Outcome State Fault Refusal :=
  .next (s.prepare (rawCheck s.params.frameMax topic.length data.length) (rawFrame node topic version data))

/-- A log frame (R67). -/
def execFramePublishLog (node : NodeId) (topic filename text : Bytes) (s : State) : Host.Outcome State Fault Refusal :=
  .next (s.prepare (logCheck s.params.frameMax topic.length filename.length text.length)
    (logFrame node topic filename text))

/-- A print frame (R68). -/
def execFramePublishPrint (node : NodeId) (topic text : Bytes) (s : State) : Host.Outcome State Fault Refusal :=
  .next (s.prepare (printCheck s.params.frameMax topic.length text.length) (printFrame node topic text))

/-- POLL from its start to its end when the burst is these bytes (R186, R148). -/
def State.receive (s : State) (burst : Bytes) : State :=
  s.startPoll.endReading ((Reading.start true).acceptAll s.params.rxMax burst)

/-- An inbound publish frame (R69). -/
def execFramePublishInbound (reserved : Byte) (ck : Half) (node : NodeId) (type version : Byte) (topic data : Bytes)
    (s : State) : Host.Outcome State Fault Refusal :=
  .next (s.receive (inboundFrame reserved ck node type version topic data))

end Sys2Proof.Machine
end

