-- ==== Sys2Proof/Machine/Dispatch.lean ====
section
/-! DEFINITION. One arm per instruction. -/

namespace Sys2Proof.Machine

open Sys2Proof

def exec (i : Instr) (s : State) : Host.Outcome State Fault Refusal :=
  match i with
  | .checksum => Sys2Proof.Machine.execChecksum s
  | .stuff => Sys2Proof.Machine.execStuff s
  | .buildSubscribe => Sys2Proof.Machine.execBuildSubscribe s
  | .buildPublishRaw => Sys2Proof.Machine.execBuildPublishRaw s
  | .buildPublishLog => Sys2Proof.Machine.execBuildPublishLog s
  | .buildPublishPrint => Sys2Proof.Machine.execBuildPublishPrint s
  | .readBurst => Sys2Proof.Machine.execReadBurst s
  | .parsePublish => Sys2Proof.Machine.execParsePublish s
  | .register => Sys2Proof.Machine.execRegister s
  | .dispatch => Sys2Proof.Machine.execDispatch s
  | .poll => Sys2Proof.Machine.execPoll s
  | .frameSubscribe topic => Sys2Proof.Machine.execFrameSubscribe topic s
  | .framePublishRaw node topic version data => Sys2Proof.Machine.execFramePublishRaw node topic version data s
  | .framePublishLog node topic filename text => Sys2Proof.Machine.execFramePublishLog node topic filename text s
  | .framePublishPrint node topic text => Sys2Proof.Machine.execFramePublishPrint node topic text s
  | .framePublishInbound reserved ck node type version topic data => Sys2Proof.Machine.execFramePublishInbound reserved ck node type version topic data s

end Sys2Proof.Machine
end

