-- ==== Sys2Proof/Machine/Flags.lean ====
section
/-! DEFINITION. The flags: the block has no condition codes and no arithmetic flags (R29); its three 1-bit states make up
the register `FLAGS` (R30). -/

namespace Sys2Proof.Machine

open Sys2Proof

/-- `FLAGS`: bit 0 `BUSY`, bit 1 `REC_VALID`, bit 2 `RX_OVF` (R30). -/
def flagsWord (busy recValid rxOvf : Bool) : BitVec 3 := BitVec.ofBool rxOvf ++ BitVec.ofBool recValid ++ BitVec.ofBool busy

/-- `FLAGS` as the host reads it. -/
def State.flags (s : State) : BitVec 3 := flagsWord s.busy s.recValid s.rxOvf

end Sys2Proof.Machine
end

