-- ==== Sys2Proof/Machine/HostPort.lean ====
section
/-! DEFINITION. The host's side of the block: the register map and the accesses other than starting a command (R30, R44,
R45, R49, R211). -/

namespace Sys2Proof.Machine

open Sys2Proof

/-- The register numbers of R30. -/
def Reg.number : Reg → Nat
  | .cmd => 0 | .status => 1 | .info => 2 | .flags => 3 | .nodeId => 4 | .seed => 5 | .crc => 6 | .ver => 7
  | .handle => 8 | .idleTimeout => 9 | .txCount => 10 | .regCount => 11 | .dispatched => 12 | .recNodeId => 13
  | .recType => 14 | .recVersion => 15 | .recTopicLen => 16 | .recDataLen => 17 | .in0Len => 18 | .in1Len => 19
  | .in2Len => 20 | .outLen => 21 | .fbufLen => 22 | .txbufLen => 23 | .accLen => 24

/-- A count or length as its 32-bit register shows it (R30). -/
def shown (n : Nat) : Nat := (BitVec.ofNat 32 n).toNat

/-- A record register shows a value only while `REC_VALID = 1` (R22, R33). -/
def State.recordValue (s : State) (v : Nat) : Option Nat := if s.recValid then some v else none

/-- The value a register shows the host; `CMD` is write-only (R30). -/
def State.regValue (s : State) : Reg → Option Nat
  | .cmd => none
  | .status => some s.status.toNat
  | .info => some s.info.toNat
  | .flags => some s.flags.toNat
  | .nodeId => some s.nodeId.toNat
  | .seed => some s.seed.toNat
  | .crc => some s.crc.toNat
  | .ver => some s.ver.toNat
  | .handle => some s.handle
  | .idleTimeout => some s.idleTimeout.toNat
  | .txCount => some s.txCount.toNat
  | .regCount => some (shown s.regy.length)
  | .dispatched => some s.dispatched.toNat
  | .recNodeId => s.recordValue s.record.nodeId.toNat
  | .recType => s.recordValue s.record.type.toNat
  | .recVersion => s.recordValue s.record.version.toNat
  | .recTopicLen => s.recordValue s.record.topicLen.toNat
  | .recDataLen => s.recordValue s.record.dataLen.toNat
  | .in0Len => some (shown s.in0.len)
  | .in1Len => some (shown s.in1.len)
  | .in2Len => some (shown s.in2.len)
  | .outLen => some (shown s.out.length)
  | .fbufLen => some (shown s.fbuf.length)
  | .txbufLen => some (shown s.txbuf.length)
  | .accLen => some (shown s.acc.length)

/-- The reply to a read that shows a value or none. -/
def readReply (v : Option Nat) : HostReply :=
  match v with
  | some n => .value n
  | none => .noValue

/-- A register read: while `BUSY = 1` only `FLAGS` can be read (R49). Reading changes nothing (R49). -/
def State.hostRead (s : State) (r : Reg) : State :=
  { s with reply := if s.busy && decide (r ≠ .flags) then .noValue else readReply (s.regValue r) }

/-- Set a length register (R44): a value above the capacity is not performed; lowering it leaves the bytes beyond it
unspecified (R33). -/
def InBuf.setLen (b : InBuf) (id : BufId) (frameMax : Option Nat) (k n : Nat) : Option InBuf :=
  if !fits frameMax n then none
  else if n < b.len then some { b with len := n, mem := b.mem.forget id k n }
  else some { b with len := n }

/-- The write was performed. -/
def State.accepted (s : State) : State := { s with reply := .done }

/-- The write was not performed. -/
def State.declined (s : State) : State := { s with reply := .ignored }

/-- A register write by the idle block, `CMD` apart (R30): a value is cut to the register's width, read-only registers
ignore it (R211), `IDLE_TIMEOUT` ignores its one illegal value (R18), a length register one above the capacity (R44). -/
def State.writeReg (s : State) (r : Reg) (v : Nat) : State :=
  match r with
  | .seed => { s with seed := BitVec.ofNat 16 v }.accepted
  | .ver => { s with ver := BitVec.ofNat 8 v }.accepted
  | .handle => { s with handle := v % 2 ^ s.params.cbW }.accepted
  | .idleTimeout =>
    if BitVec.ofNat Config.timeW v = BitVec.allOnes Config.timeW then s.declined
    else { s with idleTimeout := BitVec.ofNat Config.timeW v }.accepted
  | .in0Len =>
    match s.in0.setLen .in0 s.params.frameMax s.free.cell (shown v) with
    | none => s.declined
    | some b => { s with in0 := b, free := { s.free with cell := s.free.cell + 1 } }.accepted
  | .in1Len =>
    match s.in1.setLen .in1 s.params.frameMax s.free.cell (shown v) with
    | none => s.declined
    | some b => { s with in1 := b, free := { s.free with cell := s.free.cell + 1 } }.accepted
  | .in2Len =>
    match s.in2.setLen .in2 s.params.frameMax s.free.cell (shown v) with
    | none => s.declined
    | some b => { s with in2 := b, free := { s.free with cell := s.free.cell + 1 } }.accepted
  | .cmd | .status | .info | .flags | .nodeId | .crc | .txCount | .regCount | .dispatched | .recNodeId | .recType
  | .recVersion | .recTopicLen | .recDataLen | .outLen | .fbufLen | .txbufLen | .accLen => s.declined

/-- A register write, `CMD` apart: the busy block's registers cannot be written (R242). -/
def State.hostWrite (s : State) (r : Reg) (v : Nat) : State := if s.busy then s.declined else s.writeReg r v

/-- A `MemWrite` by the host (R45): to an `IN` buffer, within its capacity; the other buffers are read-only (R30, R211),
and the busy block's buffers cannot be written (R242). -/
def State.hostWriteBuf (s : State) (id : BufId) (off : Nat) (bytes : Bytes) : Host.Outcome State Fault Refusal :=
  if s.busy then .next s.declined
  else
    let inside := fits s.params.frameMax (off + bytes.length)
    match id with
    | .in0 =>
      if inside then .next { s with in0 := { s.in0 with mem := s.in0.mem.writeAll off bytes } }.accepted
      else .fault (.writeOutside id off bytes.length)
    | .in1 =>
      if inside then .next { s with in1 := { s.in1 with mem := s.in1.mem.writeAll off bytes } }.accepted
      else .fault (.writeOutside id off bytes.length)
    | .in2 =>
      if inside then .next { s with in2 := { s.in2 with mem := s.in2.mem.writeAll off bytes } }.accepted
      else .fault (.writeOutside id off bytes.length)
    | .out | .fbuf | .txbuf | .acc | .recTopic | .recData => .next s.declined

/-- Is the content of a buffer defined? The record buffers are not while `REC_VALID = 0` (R22, R33). -/
def State.readable (s : State) (id : BufId) : Bool :=
  match id with
  | .recTopic => s.recValid
  | .recData => s.recValid
  | .in0 | .in1 | .in2 | .out | .fbuf | .txbuf | .acc => true

/-- A `MemRead` by the host (R45): the bytes, if they are all below the buffer's length; what lies beyond it is
unspecified and never readable (R33, I15), and nothing can be read while `BUSY = 1` (R49). -/
def State.hostReadBuf (s : State) (id : BufId) (off n : Nat) : State :=
  { s with reply :=
      if s.busy || !s.readable id then .noValue
      else if off + n ≤ (s.buffer id).length then .bytes (slice (s.buffer id) off n)
      else .noValue }

/-- A read of `REGY[k]` (R20, R30): an entry at or beyond `REG_COUNT` is unreadable (R33). -/
def State.hostReadEntry (s : State) (k : Nat) : State :=
  { s with reply := if s.busy then .noValue else readReply (s.regy[k]?) }

end Sys2Proof.Machine
end

