-- ==== Sys2Proof/Machine/Fetch.lean ====
section
/-! DEFINITION. What happens next (R11, R13, R54): the block has no program counter; commands come from the host, one at a
time, by a write of `CMD`. -/

namespace Sys2Proof.Machine

open Sys2Proof

/-- The next event is a command to run in this state, or something that is over with this outcome. -/
inductive Fetched where
  | command (i : Instr) (s : State)
  | over (o : Host.Outcome State Fault Refusal)

/-- A write of `CMD` while `BUSY = 1`: `ERR_BUSY` to the writer, and nothing else (R13, R217). -/
def State.refuseBusy (s : State) (code : Byte) : State :=
  { s with reply := .errBusy code, busyTrace := s.busyTrace ++ [code] }

/-- A write of `CMD` (R13): the command its code selects, or `ERR_CMD` (R76). -/
def State.start (s : State) (code : Byte) : Fetched :=
  if s.busy then .over (.next (s.refuseBusy code))
  else
    match decode .command [code] with
    | .ok i => .command i { s with cmd := code, reply := .done }
    | .error _ => .over (.next ({ s with cmd := code, reply := .done }.raise .errCmd code.toNat))

/-- One access of the host. -/
def State.access (s : State) : HostAccess → Fetched
  | .write .cmd v => s.start (BitVec.ofNat 8 v)
  | .write r v => .over (.next (s.hostWrite r v))
  | .read r => .over (.next (s.hostRead r))
  | .writeBuf id off bytes => .over (s.hostWriteBuf id off bytes)
  | .readBuf id off n => .over (.next (s.hostReadBuf id off n))
  | .readEntry k => .over (.next (s.hostReadEntry k))
  | .reset node => .over (.next (s.resetBlock node))

/-- One event of the receive side: an iteration of the reader if it runs; otherwise it passes the block by, and what
becomes of its byte is the transport's affair (R243). -/
def State.lineEvent (s : State) (e : LineEvent) : State :=
  match s.activity with
  | .ready => s
  | .reading r => s.readerStep r e

/-- No event is listed: an idle block waits for its host (R11); a running reader goes on with an event the environment
chooses freely (R142, R153). -/
def State.quiet (s : State) : State :=
  match s.activity with
  | .ready => s
  | .reading r =>
    { s with free := { s.free with line := s.free.line + 1 } }.readerStep r (Config.freeLine s.free.line)

/-- Take the next event. -/
def State.fetch (s : State) : Fetched :=
  match s.inputs with
  | [] => .over (.next s.quiet)
  | .line e :: rest => .over (.next ({ s with inputs := rest }.lineEvent e))
  | .host a :: rest => { s with inputs := rest }.access a

end Sys2Proof.Machine
end

