-- ==== Sys2Proof/Machine/Step.lean ====
section
/-! DEFINITION. One step of the block: the next event, to its end. -/

namespace Sys2Proof.Machine

open Sys2Proof

/-- One step (R13, R54). -/
def step (s : State) : Host.Outcome State Fault Refusal :=
  match s.fetch with
  | .command i s' => exec i s'
  | .over o => o

/-- The state whose next event is the host's write of this word to `CMD`, of an idle block (R13, R74). -/
def State.withFetchWord (s : State) (nbits w : Nat) : State :=
  { s with activity := .ready, inputs := .host (.write .cmd (w % 2 ^ nbits)) :: s.inputs }

end Sys2Proof.Machine
end

