-- ==== Sys2Proof/Safety.lean ====
section
/-! DEFINITION. What a safe run is, and the reference functions statements compare the machine with: the decoder the block
does not have (R108), the bitwise form of the checksum (R96) and the source's loop on absolute clock readings (R142).
None of these is called by the machine. -/

namespace Sys2Proof.Safety

open Sys2Proof Sys2Proof.Machine

/-! ### The stuffed form (R71, R108, R111) -/

/-- Read the rest of a block that still lacks `missing` bytes, then the blocks after it (R111): a code byte is not 0x00
and is followed by exactly `c - 1` bytes, none of them 0x00. -/
def splitBlocks : Nat → Bytes → Option (Bytes × List (Byte × Bytes))
  | 0, [] => some ([], [])
  | _ + 1, [] => none
  | 0, c :: rest =>
    if c = delimiter then none
    else
      match splitBlocks (c.toNat - 1) rest with
      | some (lits, blocks) => some ([], (c, lits) :: blocks)
      | none => none
  | n + 1, b :: rest =>
    if b = delimiter then none
    else
      match splitBlocks n rest with
      | some (lits, blocks) => some (b :: lits, blocks)
      | none => none

/-- The blocks of a stuffed sequence (R111), each a code byte and its bytes. -/
def blocks (e : Bytes) : Option (List (Byte × Bytes)) :=
  match splitBlocks 0 e with
  | some (_, bs) => some bs
  | none => none

/-- What a sequence of blocks stands for (R71): a code other than 0xFF marks a delimiter, except in the last block. -/
def unblock : List (Byte × Bytes) → Bytes
  | [] => []
  | [(_, lits)] => lits
  | (c, lits) :: next :: rest => lits ++ (if c = 0xFF then [] else [delimiter]) ++ unblock (next :: rest)

/-- The decoder of R108, a proof device only. -/
def unstuff (e : Bytes) : Option Bytes :=
  match blocks e with
  | some bs => some (unblock bs)
  | none => none

/-! ### The checksum register (R96) -/

/-- One shift of the feedback register (R96). -/
def lfsrShift (c : Half) : Half := if c.getLsbD 0 then (c >>> 1) ^^^ 0x8408 else c >>> 1

/-- `n` shifts. -/
def lfsrShifts : Nat → Half → Half
  | 0, c => c
  | n + 1, c => lfsrShifts n (lfsrShift c)

/-! ### The source's loop (R142) -/

/-- Where the loop stands after some iterations: what has been gathered and the clock reading `t0`, or how it ended. -/
inductive LoopResult where
  | going (t0 : Nat) (acc : Bytes) (ovf : Bool)
  | returned (acc : Bytes) (ovf : Bool)
  | failed
deriving DecidableEq, Repr

/-- Append arrived bytes, dropping what does not fit (R148). -/
def gather (rxMax : Option Nat) (acc : Bytes) (ovf : Bool) (s : Bytes) : Bytes × Bool :=
  match rxMax with
  | none => (acc ++ s, ovf)
  | some m => ((acc ++ s).take (max m acc.length), ovf || decide (s ≠ [] ∧ m < acc.length + s.length))

/-- The loop of R142, word for word: each iteration has an answer of `env.read_available` and the reading of `env.now`
it makes. -/
def sourceLoop (timeout : Nat) (rxMax : Option Nat) (t0 : Nat) (acc : Bytes) (ovf : Bool) :
    List (RxAnswer × Nat) → LoopResult
  | [] => .going t0 acc ovf
  | (.fail, _) :: _ => .failed
  | (.chunk (b :: bs), now) :: rest =>
    sourceLoop timeout rxMax now (gather rxMax acc ovf (b :: bs)).1 (gather rxMax acc ovf (b :: bs)).2 rest
  | (.chunk [], now) :: rest =>
    if now - t0 > timeout then .returned acc ovf else sourceLoop timeout rxMax t0 acc ovf rest
  | (.nothing, now) :: rest =>
    if now - t0 > timeout then .returned acc ovf else sourceLoop timeout rxMax t0 acc ovf rest

/-- An iteration of the hardware form seen as one of the source's loop (R144): one per tick, a byte before a failure. -/
def answerOf : LineEvent → RxAnswer
  | .tick (some b) _ => .chunk [b]
  | .tick none true => .fail
  | .tick none false => .nothing
  | .poll a _ => a

/-- By how much the clock advances in an iteration. -/
def elapsedOf : LineEvent → Nat
  | .tick _ _ => 1
  | .poll _ n => n

/-- The iterations with absolute clock readings, the reading before them being `now`. -/
def readings (now : Nat) : List LineEvent → List (RxAnswer × Nat)
  | [] => []
  | e :: rest => (answerOf e, now + elapsedOf e) :: readings (now + elapsedOf e) rest

/-- Ticks without a byte. -/
def silence (n : Nat) : List Input := List.replicate n (.line (.tick none false))

/-- A line on which each byte follows after a gap, counted in ticks without a byte (R154). -/
def arrivals : List (Nat × Byte) → List Input
  | [] => []
  | (gap, b) :: rest => silence gap ++ .line (.tick (some b) false) :: arrivals rest

/-- An answer R50 allows: a chunk has at least one byte and at most `READ_CHUNK`. -/
def lawfulAnswer : RxAnswer → Bool
  | .nothing => true
  | .chunk s => decide (1 ≤ s.length ∧ s.length ≤ Config.readChunk)
  | .fail => true

/-! ### The text of a topic (R167), which the block does not compute -/

/-- The text rendering on the consumer side (R167). -/
def topicText (topic : Bytes) : String :=
  match String.fromUTF8? (ByteArray.mk (topic.map (fun b => UInt8.ofBitVec b)).toArray) with
  | some t => t
  | none => Config.lossy topic

/-! ### What a builder leaves -/

/-- The four builder commands (R115). -/
def builders : List Instr := [.buildSubscribe, .buildPublishRaw, .buildPublishLog, .buildPublishPrint]

/-- The registers a host cannot write (R30). -/
def readOnly : List Reg :=
  [.status, .info, .flags, .nodeId, .crc, .txCount, .regCount, .dispatched, .recNodeId, .recType, .recVersion,
   .recTopicLen, .recDataLen, .outLen, .fbufLen, .txbufLen, .accLen]

/-- The first `RX_MAX` bytes of a burst (R148). -/
def cut (rxMax : Option Nat) (s : Bytes) : Bytes :=
  match rxMax with
  | none => s
  | some m => s.take m

/-- Does a burst of `n` bytes exceed `RX_MAX` (R27)? -/
def overflows (rxMax : Option Nat) (n : Nat) : Bool := !fits rxMax n

/-- PARSE_PUBLISH on a body gives this result (R160): a record, or none. -/
def ParsesTo (p : Bytes) (r : Option Record) : Prop :=
  ∀ s : State, s.in0Bytes = p → ∃ t, exec .parsePublish s = .next t ∧ t.status = 0x00 ∧ t.recValid = r.isSome ∧
    ∀ x, r = some x → t.record = x

/-- What POLL, begun in `s`, leaves in `t` of a complete burst (R186 to R188): with an overflow, without a header, with
another type or without a record in it, nothing is recorded and nobody invoked; else the record of everything after the
header goes to every registered consumer in order. -/
def Judged (s : State) (burst : Bytes) (overflow : Bool) (t : State) : Prop :=
  match (if overflow = true ∨ burst.length < 4 ∨ burst.getD 0 0 ≠ 0x02 then none else parseBody (burst.drop 4)) with
  | none => t.recValid = false ∧ t.dispatched = 0 ∧ t.cbTrace = s.cbTrace
  | some r => t.recValid = true ∧ t.record = r ∧ t.dispatched = BitVec.ofNat 32 s.regy.length ∧
    ∃ items, t.cbTrace = s.cbTrace ++ items ∧ items.map CbItem.handle = s.regy ∧ ∀ i ∈ items, i.record = r

/-- The operand buffers (R23), each with its length register. -/
def operandBufs : List (BufId × Reg) := [(.in0, .in0Len), (.in1, .in1Len), (.in2, .in2Len)]

/-- The operand buffer of that name; every other name stands for `IN0`. -/
def operandBuf (s : State) : BufId → InBuf
  | .in1 => s.in1
  | .in2 => s.in2
  | _ => s.in0

/-- The state with that operand buffer replaced. -/
def withOperandBuf (s : State) (id : BufId) (b : InBuf) : State :=
  match id with
  | .in1 => { s with in1 := b }
  | .in2 => { s with in2 := b }
  | _ => { s with in0 := b }

/-- The buffers a host can only read (R30), with their contents. -/
def resultBufs (s : State) : List (BufId × Bytes) :=
  [(.out, s.out), (.fbuf, s.fbuf), (.txbuf, s.txbuf), (.acc, s.acc), (.recTopic, s.record.topic),
   (.recData, s.record.data)]

/-! ### The operands of the spec's worked examples -/

/-- The node identity of the spec's examples. -/
def nid : NodeId := 0xC0FFEEEEF0CACC1A

/-- "device/led", the topic of the spec's worked example. -/
def deviceLed : Bytes := [0x64, 0x65, 0x76, 0x69, 0x63, 0x65, 0x2F, 0x6C, 0x65, 0x64]

/-- `{"led":"on"}`. -/
def ledOn : Bytes := [0x7B, 0x22, 0x6C, 0x65, 0x64, 0x22, 0x3A, 0x22, 0x6F, 0x6E, 0x22, 0x7D]

/-- The body of vector Q1. -/
def bodyQ1 : Bytes :=
  [0x1A, 0xCC, 0xCA, 0xF0, 0xEE, 0xEE, 0xFF, 0xC0, 0x01, 0x01, 0x0A, 0x00, 0x64, 0x65, 0x76, 0x69, 0x63, 0x65, 0x2F,
   0x6C, 0x65, 0x64, 0x7B, 0x22, 0x6C, 0x65, 0x64, 0x22, 0x3A, 0x22, 0x6F, 0x6E, 0x22, 0x7D]

/-- The record of vector Q1. -/
def recordQ1 : Record :=
  { nodeId := nid, type := 0x01, version := 0x01, topicLen := 10, topic := deviceLed, dataLen := 12, data := ledOn }

/-- "spotter/fprintf" and "spotter/printf". -/
def topicLog : Bytes := [0x73, 0x70, 0x6F, 0x74, 0x74, 0x65, 0x72, 0x2F, 0x66, 0x70, 0x72, 0x69, 0x6E, 0x74, 0x66]
def topicPrint : Bytes := [0x73, 0x70, 0x6F, 0x74, 0x74, 0x65, 0x72, 0x2F, 0x70, 0x72, 0x69, 0x6E, 0x74, 0x66]

/-! ### The invariant -/

/-- An `IN` buffer within its capacity (R41) and in canonical form. -/
def BufInv (frameMax : Option Nat) (b : InBuf) : Prop :=
  b.mem.wf ∧ fits frameMax b.len = true ∧ ∀ c ∈ b.mem, fits frameMax (c.1 + 1) = true

/-- The registry (R20): within its capacity, its handles pairwise different and `CB_W` bits wide (R17). -/
def RegistryInv (s : State) : Prop :=
  s.regy.Nodup ∧ fits s.params.maxConsumers s.regy.length = true ∧ (∀ h ∈ s.regy, h < 2 ^ s.params.cbW)
    ∧ s.handle < 2 ^ s.params.cbW

/-- The capacity of `REC_DATA` (R41). -/
def dataCapacity (p : Params) : Option Nat :=
  match p.rxMax, p.frameMax with
  | some a, some b => some (max a b)
  | some _, none | none, _ => none

/-- The record registers while they hold a record (R22, R166): the topic and the data no larger than the parser's input can
be (R43), each within its buffer (R41; the topic's is R41's row wherever that row and R160 agree, assumption 18). -/
def RecordInv (s : State) : Prop :=
  s.recValid = true →
    s.record.topic.length = s.record.topicLen.toNat ∧ s.record.dataLen = BitVec.ofNat 32 s.record.data.length ∧
    fits (dataCapacity s.params) (s.record.topic.length + s.record.data.length) = true ∧
    s.record.topic.length ≤ s.params.topicCapacity

/-- `ACC` within its capacity; an overflowed burst fills it (R27, R148). -/
def AccInv (rxMax : Option Nat) (acc : Bytes) (ovf : Bool) : Prop :=
  fits rxMax acc.length = true ∧ (ovf = true → rxMax = some acc.length)

/-- A running reader: its accumulator as `ACC`, and an idle clock that has not exceeded the timeout (R141, R144); while
POLL waits there is no record and nobody has been invoked (R186). -/
def ActivityInv (s : State) : Prop :=
  match s.activity with
  | .ready => True
  | .reading r => AccInv s.params.rxMax r.acc r.ovf ∧ r.idle.toNat ≤ s.idleTimeout.toNat ∧
    (r.forPoll = true → s.recValid = false ∧ s.dispatched = 0)

/-- The largest `OUT` for a frame capacity (R41). -/
def outMax (frameMax : Option Nat) : Option Nat :=
  match frameMax with
  | none => none
  | some m => some (stuffedMax m)

/-- The builders' buffers: within their capacities (R41), and `TXBUF` the wire image of `FBUF`, whose checksum field
holds its checksum (R25, R26, R125), or both empty. -/
def FrameInv (s : State) : Prop :=
  fits s.params.frameMax s.fbuf.length = true
    ∧ ((s.fbuf = [] ∧ s.txbuf = []) ∨ (s.txbuf = wireImage s.fbuf ∧ checksumHolds s.fbuf = true))

/-- The invariant of the block: every length within its capacity (R41), every register within its legal values (R30). -/
def Inv (s : State) : Prop :=
  BufInv s.params.frameMax s.in0 ∧ BufInv s.params.frameMax s.in1 ∧ BufInv s.params.frameMax s.in2
    ∧ fits (outMax s.params.frameMax) s.out.length = true ∧ FrameInv s
    ∧ AccInv s.params.rxMax s.acc s.rxOvf ∧ ActivityInv s ∧ RegistryInv s ∧ RecordInv s
    ∧ s.idleTimeout ≠ BitVec.allOnes Config.timeW

end Sys2Proof.Safety

namespace Sys2Proof.Machine

open Sys2Proof

/-- The state after a builder command that assembled this frame and offered its wire image (R116, R117): the environment
accepts at most what is offered (R51). -/
def State.offer (s : State) (frame : Bytes) : State :=
  { s.dropTxAnswer with
    fbuf := frame
    txbuf := stuff frame ++ [0x00]
    txCount := BitVec.ofNat 32 (min s.txAnswer (stuff frame ++ [0x00]).length)
    txTrace := s.txTrace ++ (stuff frame ++ [0x00]).take s.txAnswer
    status := if (stuff frame ++ [0x00]).length ≤ s.txAnswer then 0x00 else 0x02
    info := if (stuff frame ++ [0x00]).length ≤ s.txAnswer then 0 else BitVec.ofNat 32 s.txAnswer }

/-- The state after a command that only reported `ERR_LENGTH` (R118). -/
def State.tooLong (s : State) (len : Nat) : State := { s with status := 0x03, info := BitVec.ofNat 32 len }

end Sys2Proof.Machine
end

