-- ==== Sys2Proof/Certificates/Slice0/Obligations.lean ====
section
/-! DEFINITION. The statements about the block, each citing the rule it formalises. Equations with a whole next state on the
right say by their form that everything not named is unchanged. -/

open Sys2Proof Sys2Proof.Machine Sys2Proof.Safety

/-! ### CHECKSUM -/

/-- R91: CHECKSUM has code 0x01, folds the byte step over `IN0` from `SEED`, writes `CRC`, ends with `OK`, and changes
nothing else, `SEED` included; "AB" gives 0x3EA8. -/
def Obligations.ChecksumCommandResult : Prop :=
  decodeCommand 0x01 = .ok .checksum ∧
  (∀ s : State, exec .checksum s =
    .next { s with crc := s.in0Bytes.foldl crcStep s.seed, status := 0x00, info := 0 }) ∧
  [0x41].foldl crcStep 0x0000 = 0x538D ∧ [0x41, 0x42].foldl crcStep 0x0000 = 0x3EA8

/-- R96: the byte step is eight shifts of the feedback register with constant 0x8408; the check values. -/
def Obligations.CrcStepIsBitwiseRegister : Prop :=
  (∀ (seed : Half) (i : Byte), crcStep seed i = lfsrShifts 8 (seed ^^^ i.setWidth 16)) ∧
  checksum 0x0000 [0x31, 0x32, 0x33, 0x34, 0x35, 0x36, 0x37, 0x38, 0x39] = 0x2189 ∧
  checksum 0xFFFF [0x31, 0x32, 0x33, 0x34, 0x35, 0x36, 0x37, 0x38, 0x39] = 0x6F91

/-- R93: the checksum of a concatenation is the checksum of the second part from the checksum of the first. -/
def Obligations.ChecksumConcatenates : Prop :=
  ∀ (seed : Half) (a b : Bytes), checksum seed (a ++ b) = checksum (checksum seed a) b

/-- R92, R95: the empty sequence leaves the seed; from seed 0, leading zero bytes leave the running value at 0. -/
def Obligations.ChecksumEmptyAndLeadingZeros : Prop :=
  (∀ seed : Half, checksum seed [] = seed) ∧ crcStep 0x0000 0x00 = 0x0000 ∧
  (∀ n : Nat, checksum 0x0000 (List.replicate n 0x00) = 0x0000) ∧
  ∀ (n : Nat) (m : Bytes), checksum 0x0000 (List.replicate n 0x00 ++ m) = checksum 0x0000 m

/-- R97: a message followed by its own checksum, low byte first, has checksum 0. -/
def Obligations.ChecksumSelfResidue : Prop :=
  ∀ (seed : Half) (m : Bytes),
    checksum seed (m ++ [lo8 (checksum seed m), hi8 (checksum seed m)]) = 0x0000

/-! ### STUFF -/

/-- R100: STUFF has code 0x02, writes the stuffed `IN0` to `OUT`, where the delimiter does not appear, ends with `OK` and
changes nothing else; `OUT` has room for it whatever fits `IN0`; the worked example. -/
def Obligations.StuffCommandResult : Prop :=
  decodeCommand 0x02 = .ok .stuff ∧
  (∀ s : State, exec .stuff s = .next { s with out := stuff s.in0Bytes, status := 0x00, info := 0 }) ∧
  (∀ s : State, 0x00 ∉ stuff s.in0Bytes) ∧
  (∀ (s : State) (m : Nat), s.in0.len ≤ m → (stuff s.in0Bytes).length ≤ m + 1 + m / 254) ∧
  stuff [0x11, 0x22, 0x00, 0x33] = [0x03, 0x11, 0x22, 0x02, 0x33]

/-- R105: the output holds no delimiter, its length is within the two bounds, it is `n + 1` exactly when no block is
forced, which is so when every run of non-delimiters is at most 253 long; it starts with a code byte and parses into blocks
in one way only. -/
def Obligations.StuffedOutputBounds : Prop :=
  ∀ b : Bytes,
    0x00 ∉ stuff b ∧ b.length + 1 ≤ (stuff b).length ∧ (stuff b).length ≤ b.length + 1 + b.length / 254 ∧
    (∃ bs, blocks (stuff b) = some bs ∧ (stuff b).head? = bs.head?.map Prod.fst ∧
      ((stuff b).length = b.length + 1 ↔ ∀ x ∈ bs, x.1 ≠ 0xFF) ∧
      ∀ other : List (Byte × Bytes), (∀ x ∈ other, 1 ≤ x.1.toNat ∧ x.2.length = x.1.toNat - 1) →
        stuff b = (other.map (fun x => x.1 :: x.2)).flatten → other = bs) ∧
    ((∀ run : Bytes, run <:+: b → 0x00 ∉ run → run.length ≤ 253) → (stuff b).length = b.length + 1)

/-- R108: the matching decoder, which the block does not have, gives every input back. -/
def Obligations.UnstuffRecoversInput : Prop := ∀ b : Bytes, unstuff (stuff b) = some b

/-- R111: the output is a non-empty sequence of blocks, each a code byte and `c - 1` bytes other than 0x00; the last code
is not 0xFF; the blocks stand for the input; the input has one delimiter fewer than there are codes below 0xFF. -/
def Obligations.StuffedOutputGrammar : Prop :=
  ∀ b : Bytes, ∃ bs, blocks (stuff b) = some bs ∧ bs ≠ [] ∧
    stuff b = (bs.map (fun x => x.1 :: x.2)).flatten ∧
    (∀ x ∈ bs, 0x01 ≤ x.1.toNat ∧ x.2.length = x.1.toNat - 1 ∧ 0x00 ∉ x.2) ∧
    (∀ x, bs.getLast? = some x → x.1 ≠ 0xFF) ∧ unblock bs = b ∧
    b.count 0x00 + 1 = (bs.filter (fun x => x.1 ≠ 0xFF)).length

/-- R112, R106: the corner cases, for every choice of the non-zero bytes. -/
def Obligations.StuffCornerCases : Prop :=
  stuff [] = [0x01] ∧ stuff [0x00] = [0x01, 0x01] ∧ (∀ x : Byte, x ≠ 0x00 → stuff [x] = [0x02, x]) ∧
  stuff [0x00, 0x00, 0x00] = [0x01, 0x01, 0x01, 0x01] ∧ stuff [0xFF] = [0x02, 0xFF] ∧
  ∀ d : Bytes, 0x00 ∉ d →
    (d.length = 253 → stuff d = 0xFE :: d ∧ stuff (d ++ [0x00]) = 0xFE :: d ++ [0x01]) ∧
    (d.length = 254 → stuff d = 0xFF :: d ++ [0x01] ∧ stuff (d ++ [0x00]) = 0xFF :: d ++ [0x01, 0x01]) ∧
    (d.length = 255 → stuff d = 0xFF :: d.take 254 ++ 0x02 :: d.drop 254) ∧
    (d.length = 300 → stuff d = 0xFF :: d.take 254 ++ 0x2F :: d.drop 254 ∧ (stuff d).length = 302) ∧
    (d.length = 508 → stuff d = 0xFF :: d.take 254 ++ 0xFF :: d.drop 254 ++ [0x01])

/-! ### The builders -/

/-- R119, with R116 and R117: BUILD_SUBSCRIBE of a topic that fits builds `03 00 ck_lo ck_hi`, length, topic, where the
checksum is that of the frame with its field zero, stuffs it with one delimiter, and offers it whole, once; nothing else
changes. One that does not fit is refused. The corner case and the worked example. -/
def Obligations.BuildSubscribeResult : Prop :=
  decodeCommand 0x10 = .ok .buildSubscribe ∧
  (∀ (s : State) (topic rest : Bytes) (ck : Half), topic = s.in0Bytes → topic.length ≤ 65535 →
    fits s.params.frameMax (6 + topic.length) = true →
    rest = le16 (BitVec.ofNat 16 topic.length) ++ topic →
    ck = checksum 0x0000 ([0x03, 0x00, 0x00, 0x00] ++ rest) →
    exec .buildSubscribe s = .next (s.offer ([0x03, 0x00, lo8 ck, hi8 ck] ++ rest))) ∧
  (∀ s : State, 65535 < s.in0.len ∨ fits s.params.frameMax (6 + s.in0.len) = false →
    ∃ n, exec .buildSubscribe s = .next (s.tooLong n)) ∧
  encode (.frameSubscribe []) = [0x03, 0x00, 0x7D, 0x0C, 0x00, 0x00] ∧
  wireImage (encode (.frameSubscribe [])) = [0x02, 0x03, 0x03, 0x7D, 0x0C, 0x01, 0x01, 0x00] ∧
  encode (.frameSubscribe deviceLed) =
    [0x03, 0x00, 0xB2, 0x63, 0x0A, 0x00, 0x64, 0x65, 0x76, 0x69, 0x63, 0x65, 0x2F, 0x6C, 0x65, 0x64] ∧
  wireImage (encode (.frameSubscribe deviceLed)) =
    [0x02, 0x03, 0x04, 0xB2, 0x63, 0x0A, 0x0B, 0x64, 0x65, 0x76, 0x69, 0x63, 0x65, 0x2F, 0x6C, 0x65, 0x64, 0x00]

/-- R120, with R116, R117 and R123: BUILD_PUBLISH_RAW, and the worked example. -/
def Obligations.BuildPublishRawResult : Prop :=
  decodeCommand 0x11 = .ok .buildPublishRaw ∧
  (∀ (s : State) (topic data rest : Bytes) (ck : Half), topic = s.in0Bytes → data = s.in1Bytes →
    topic.length ≤ 65535 → fits s.params.frameMax (17 + topic.length + data.length) = true →
    rest = le64 s.nodeId ++ [0x01, 0x01] ++ le16 (BitVec.ofNat 16 topic.length) ++ topic ++ [s.ver] ++ data →
    ck = checksum 0x0000 ([0x02, 0x00, 0x00, 0x00] ++ rest) →
    exec .buildPublishRaw s = .next (s.offer ([0x02, 0x00, lo8 ck, hi8 ck] ++ rest))) ∧
  (∀ s : State, 65535 < s.in0.len ∨ fits s.params.frameMax (17 + s.in0.len + s.in1.len) = false →
    ∃ n, exec .buildPublishRaw s = .next (s.tooLong n)) ∧
  encode (.framePublishRaw nid deviceLed 0x01 ledOn) =
    [0x02, 0x00, 0x91, 0x09, 0x1A, 0xCC, 0xCA, 0xF0, 0xEE, 0xEE, 0xFF, 0xC0, 0x01, 0x01, 0x0A, 0x00, 0x64, 0x65, 0x76, 0x69,
     0x63, 0x65, 0x2F, 0x6C, 0x65, 0x64, 0x01, 0x7B, 0x22, 0x6C, 0x65, 0x64, 0x22, 0x3A, 0x22, 0x6F, 0x6E, 0x22, 0x7D] ∧
  wireImage (encode (.framePublishRaw nid deviceLed 0x01 ledOn)) =
    [0x02, 0x02, 0x0E, 0x91, 0x09, 0x1A, 0xCC, 0xCA, 0xF0, 0xEE, 0xEE, 0xFF, 0xC0, 0x01, 0x01, 0x0A, 0x18, 0x64, 0x65, 0x76,
     0x69, 0x63, 0x65, 0x2F, 0x6C, 0x65, 0x64, 0x01, 0x7B, 0x22, 0x6C, 0x65, 0x64, 0x22, 0x3A, 0x22, 0x6F, 0x6E, 0x22, 0x7D,
     0x00]

/-- R121, with R116, R117 and R123: BUILD_PUBLISH_LOG; the newline is added, once. The worked example. -/
def Obligations.BuildPublishLogResult : Prop :=
  decodeCommand 0x12 = .ok .buildPublishLog ∧
  (∀ (s : State) (topic filename text rest : Bytes) (ck : Half), topic = s.in0Bytes → filename = s.in1Bytes →
    text = s.in2Bytes → topic.length ≤ 65535 → filename.length ≤ 65535 → text.length + 1 ≤ 65535 →
    fits s.params.frameMax (29 + topic.length + filename.length + text.length) = true →
    rest = le64 s.nodeId ++ [0x01, 0x01] ++ le16 (BitVec.ofNat 16 topic.length) ++ topic ++ List.replicate 8 0x00
      ++ le16 (BitVec.ofNat 16 filename.length) ++ le16 (BitVec.ofNat 16 (text.length + 1)) ++ filename ++ text
      ++ [0x0A] →
    ck = checksum 0x0000 ([0x02, 0x00, 0x00, 0x00] ++ rest) →
    exec .buildPublishLog s = .next (s.offer ([0x02, 0x00, lo8 ck, hi8 ck] ++ rest))) ∧
  (∀ s : State, 65535 < s.in0.len ∨ 65535 < s.in1.len ∨ 65535 < s.in2.len + 1 ∨
      fits s.params.frameMax (29 + s.in0.len + s.in1.len + s.in2.len) = false →
    ∃ n, exec .buildPublishLog s = .next (s.tooLong n)) ∧
  encode (.framePublishLog nid topicLog [0x61, 0x2E, 0x6C, 0x6F, 0x67] [0x68, 0x69]) =
    [0x02, 0x00, 0x90, 0xB4, 0x1A, 0xCC, 0xCA, 0xF0, 0xEE, 0xEE, 0xFF, 0xC0, 0x01, 0x01, 0x0F, 0x00, 0x73, 0x70, 0x6F, 0x74,
     0x74, 0x65, 0x72, 0x2F, 0x66, 0x70, 0x72, 0x69, 0x6E, 0x74, 0x66, 0x00, 0x00, 0x00, 0x00, 0x00, 0x00, 0x00, 0x00, 0x05,
     0x00, 0x03, 0x00, 0x61, 0x2E, 0x6C, 0x6F, 0x67, 0x68, 0x69, 0x0A]

/-- R122, with R116, R117 and R123: BUILD_PUBLISH_PRINT; `IN1` is not read. The worked example. -/
def Obligations.BuildPublishPrintResult : Prop :=
  decodeCommand 0x13 = .ok .buildPublishPrint ∧
  (∀ (s : State) (topic text rest : Bytes) (ck : Half), topic = s.in0Bytes → text = s.in2Bytes →
    topic.length ≤ 65535 → text.length + 1 ≤ 65535 →
    fits s.params.frameMax (29 + topic.length + text.length) = true →
    rest = le64 s.nodeId ++ [0x01, 0x01] ++ le16 (BitVec.ofNat 16 topic.length) ++ topic ++ List.replicate 8 0x00
      ++ [0x00, 0x00] ++ le16 (BitVec.ofNat 16 (text.length + 1)) ++ text ++ [0x0A] →
    ck = checksum 0x0000 ([0x02, 0x00, 0x00, 0x00] ++ rest) →
    exec .buildPublishPrint s = .next (s.offer ([0x02, 0x00, lo8 ck, hi8 ck] ++ rest))) ∧
  (∀ s : State, 65535 < s.in0.len ∨ 65535 < s.in2.len + 1 ∨
      fits s.params.frameMax (29 + s.in0.len + s.in2.len) = false →
    ∃ n, exec .buildPublishPrint s = .next (s.tooLong n)) ∧
  encode (.framePublishPrint nid topicPrint [0x68, 0x69]) =
    [0x02, 0x00, 0xAC, 0x45, 0x1A, 0xCC, 0xCA, 0xF0, 0xEE, 0xEE, 0xFF, 0xC0, 0x01, 0x01, 0x0E, 0x00, 0x73, 0x70, 0x6F, 0x74,
     0x74, 0x65, 0x72, 0x2F, 0x70, 0x72, 0x69, 0x6E, 0x74, 0x66, 0x00, 0x00, 0x00, 0x00, 0x00, 0x00, 0x00, 0x00, 0x00, 0x00,
     0x03, 0x00, 0x68, 0x69, 0x0A]

/-- R122, R78: BUILD_PUBLISH_PRINT does what BUILD_PUBLISH_LOG does with an empty filename. -/
def Obligations.PrintIsLogWithoutFilename : Prop :=
  ∀ s : State, exec .buildPublishPrint s =
    match exec .buildPublishLog { s with in1 := { s.in1 with len := 0 } } with
    | .next t => .next { t with in1 := s.in1 }
    | .fault r => .fault r
    | .refused r => .refused r

/-- R118: the length checks, in their order, each refusing the command with the offending length before anything but
`STATUS` and `INFO` is written. -/
def Obligations.BuildersRefuseWhatDoesNotFit : Prop :=
  ∀ (s : State) (t d f x : Nat), t = s.in0.len → d = s.in1.len → f = s.in1.len → x = s.in2.len →
    (65535 < t → ∀ i ∈ builders, exec i s = .next (s.tooLong t)) ∧
    (t ≤ 65535 → 65535 < f → exec .buildPublishLog s = .next (s.tooLong f)) ∧
    (t ≤ 65535 → f ≤ 65535 → 65535 < x + 1 → exec .buildPublishLog s = .next (s.tooLong x)) ∧
    (t ≤ 65535 → 65535 < x + 1 → exec .buildPublishPrint s = .next (s.tooLong x)) ∧
    (t ≤ 65535 → fits s.params.frameMax (6 + t) = false →
      exec .buildSubscribe s = .next (s.tooLong (6 + t))) ∧
    (t ≤ 65535 → fits s.params.frameMax (17 + t + d) = false →
      exec .buildPublishRaw s = .next (s.tooLong (17 + t + d))) ∧
    (t ≤ 65535 → f ≤ 65535 → x + 1 ≤ 65535 → fits s.params.frameMax (29 + t + f + x) = false →
      exec .buildPublishLog s = .next (s.tooLong (29 + t + f + x))) ∧
    (t ≤ 65535 → x + 1 ≤ 65535 → fits s.params.frameMax (29 + t + x) = false →
      exec .buildPublishPrint s = .next (s.tooLong (29 + t + x)))

/-- R125: after any builder command that was not refused, the checksum field holds the checksum of the frame with the
field zero, and `TXBUF` is the stuffed frame and one delimiter. -/
def Obligations.BuiltFrameChecksumIsConsistent : Prop :=
  ∀ i ∈ builders, ∀ s : State, ∃ t, exec i s = .next t ∧
    (t.status ≠ 0x03 →
      fromLe (slice t.fbuf 2 2) = (checksum 0x0000 ((t.fbuf.set 2 0x00).set 3 0x00)).toNat ∧
      t.txbuf = stuff t.fbuf ++ [0x00])

/-- R124: the frame lengths and the bounds of the wire image. -/
def Obligations.BuiltFrameLengths : Prop :=
  ∀ i ∈ builders, ∀ s : State, ∃ t, exec i s = .next t ∧
    (t.status ≠ 0x03 →
      (i = .buildSubscribe → t.fbuf.length = 6 + s.in0.len) ∧
      (i = .buildPublishRaw → t.fbuf.length = 17 + s.in0.len + s.in1.len) ∧
      (i = .buildPublishLog → t.fbuf.length = 29 + s.in0.len + s.in1.len + s.in2.len) ∧
      (i = .buildPublishPrint → t.fbuf.length = 29 + s.in0.len + s.in2.len) ∧
      4 ≤ t.fbuf.length ∧ t.fbuf.length + 2 ≤ t.txbuf.length ∧
      t.txbuf.length ≤ t.fbuf.length + 2 + t.fbuf.length / 254)

/-- R126: the wire image begins with the code byte 0x02 and the type byte; the third byte is the code byte of the segment
that starts at the checksum; so its first byte passes POLL's type check. -/
def Obligations.WireImageFirstBytes : Prop :=
  ∀ i ∈ builders, ∀ s : State, ∃ t, exec i s = .next t ∧
    (t.status ≠ 0x03 → ∃ type : Byte,
      type = (if i = .buildSubscribe then 0x03 else 0x02) ∧
      t.txbuf = [0x02, type] ++ stuff (t.fbuf.drop 2) ++ [0x00] ∧ t.txbuf.getD 0 0 = typePublish)

/-- R117, R31: one write of the whole wire image; `TX_COUNT` counts the bytes accepted, `TXTRACE` grows by exactly those,
and a short count is `ERR_TX_SHORT` with the count as detail; the buffers keep the complete frame, and no second answer is
taken. -/
def Obligations.WriteCountsAcceptedBytes : Prop :=
  ∀ i ∈ builders, ∀ (s : State) (a : Nat) (answers : List Nat), s.txAnswers = a :: answers →
    ∃ t, exec i s = .next t ∧
      (t.status ≠ 0x03 → ∃ n, n = min a t.txbuf.length ∧ t.txbuf = stuff t.fbuf ++ [0x00] ∧ t.txCount = BitVec.ofNat 32 n ∧
        t.txTrace = s.txTrace ++ t.txbuf.take n ∧ t.txAnswers = answers ∧
        (n = t.txbuf.length → t.status = 0x00 ∧ t.info = 0) ∧
        (n < t.txbuf.length → t.status = 0x02 ∧ t.info = BitVec.ofNat 32 n))

/-- R127: two builder commands with equal operands, and for a publish frame equal `NODE_ID`, produce equal frames and wire
images, whatever else differs. -/
def Obligations.BuildersCarryNoState : Prop :=
  ∀ i ∈ builders, ∀ s s' : State, s.params.frameMax = s'.params.frameMax → s.in0Bytes = s'.in0Bytes →
    (i ≠ .buildSubscribe → s.nodeId = s'.nodeId) →
    (i = .buildPublishRaw → s.ver = s'.ver) →
    (i = .buildPublishRaw ∨ i = .buildPublishLog → s.in1Bytes = s'.in1Bytes) →
    (i = .buildPublishLog ∨ i = .buildPublishPrint → s.in2Bytes = s'.in2Bytes) →
    ∃ t t', exec i s = .next t ∧ exec i s' = .next t' ∧ (t.status = 0x03 ↔ t'.status = 0x03) ∧
      (t.status ≠ 0x03 → t.fbuf = t'.fbuf ∧ t.txbuf = t'.txbuf)

/-! ### The link reader -/

/-- R154, with R145 to R148: bytes that arrive with gaps of at most `IDLE_TIMEOUT` ticks, and then `IDLE_TIMEOUT + 1`
ticks of silence, end READ_BURST with those bytes, cut to `RX_MAX`; what comes after stays with the environment. With no
byte at all it returns the empty burst. -/
def Obligations.ReadBurstEndsAfterGap : Prop :=
  decodeCommand 0x20 = .ok .readBurst ∧
  ∀ (s : State) (line : List (Nat × Byte)) (rest : List Input), (∀ x ∈ line, x.1 ≤ s.idleTimeout.toNat) →
    s.inputs = arrivals line ++ silence (s.idleTimeout.toNat + 1) ++ rest →
    exec .readBurst s = .next
      { s with acc := cut s.params.rxMax (line.map Prod.snd), rxOvf := overflows s.params.rxMax line.length,
               activity := .ready, inputs := rest, status := 0x00, info := 0 }

/-- R142, R144: run on any iterations, hardware ticks among them, READ_BURST stands where the source's loop stands on the
corresponding answers and absolute clock readings: it returns the same burst, fails, or is still busy with the same
accumulator and idle time. -/
def Obligations.ReadBurstRefinesSourceLoop : Prop :=
  ∀ (s : State) (now : Nat) (evs : List LineEvent), s.inputs = evs.map Input.line →
    ∃ t, exec .readBurst s = .next t ∧
      match sourceLoop s.idleTimeout.toNat s.params.rxMax now [] false (readings now evs) with
      | .returned acc ovf =>
        t = { s with acc := acc, rxOvf := ovf, activity := .ready, inputs := t.inputs, status := 0x00, info := 0 }
      | .failed =>
        t = { s with acc := [], rxOvf := false, activity := .ready, inputs := t.inputs, status := 0x01, info := 0 }
      | .going t0 acc ovf =>
        t = { s with
          inputs := []
          activity := .reading ⟨false, BitVec.ofNat 32 (now + (evs.map elapsedOf).sum - t0), acc, ovf⟩ }

/-- R143: whether bytes arrive in one chunk or in two makes no difference. -/
def Obligations.ChunkingDoesNotMatter : Prop :=
  ∀ (s : State) (before : List LineEvent) (after : List Input) (a b : Bytes) (k m n : Nat), a ≠ [] → b ≠ [] →
    ∃ t t',
      exec .readBurst { s with
        inputs := before.map Input.line ++ .line (.poll (.chunk (a ++ b)) k) :: after } = .next t ∧
      exec .readBurst { s with
        inputs := before.map Input.line ++ .line (.poll (.chunk a) m) :: .line (.poll (.chunk b) n) :: after } = .next t' ∧
      { t with inputs := [] } = { t' with inputs := [] }

/-- R149, R190: a failed read ends READ_BURST and POLL at once with `ERR_RX`, the bytes gathered so far discarded; after a
POLL there is no record and nobody was invoked. -/
def Obligations.ReadFailureDiscardsBurst : Prop :=
  ∀ (s : State) (line : List (Nat × Byte)) (n : Nat) (e : LineEvent) (rest : List Input),
    (∀ x ∈ line, x.1 ≤ s.idleTimeout.toNat) → n ≤ s.idleTimeout.toNat → answerOf e = .fail →
    s.inputs = arrivals line ++ silence n ++ .line e :: rest →
    exec .readBurst s = .next
      { s with acc := [], rxOvf := false, activity := .ready, inputs := rest, status := 0x01, info := 0 } ∧
    ∃ t, exec .poll s = .next t ∧
      t = { s with acc := [], rxOvf := false, activity := .ready, inputs := rest, recValid := false, record := t.record,
                   free := t.free, dispatched := 0, status := 0x01, info := 0 }

/-- R153: as long as bytes keep arriving with no gap above `IDLE_TIMEOUT` the command does not end, however many have
arrived: `BUSY` stays 1, nothing is reported, and bytes beyond `RX_MAX` are dropped; nor does one more byte end a reader that
runs. -/
def Obligations.UnbrokenLineStaysBusy : Prop :=
  (∀ (s : State) (line : List (Nat × Byte)), (∀ x ∈ line, x.1 ≤ s.idleTimeout.toNat) → s.inputs = arrivals line →
    ∃ t r, exec .readBurst s = .next t ∧ t.busy = true ∧ t.status = s.status ∧ t.info = s.info ∧ t.acc = s.acc ∧
      t.activity = .reading r ∧ r.acc = cut s.params.rxMax (line.map Prod.snd)) ∧
  ∀ (s : State) (b : Byte) (failed : Bool) (rest : List Input), s.busy = true →
    s.inputs = .line (.tick (some b) failed) :: rest → ∃ t, step s = .next t ∧ t.busy = true

/-! ### The parser -/

/-- R160 to R163, R165, R166, R169: PARSE_PUBLISH. A body shorter than 12 bytes, or one its topic overruns (the sum is
not cut to 16 bits), leaves `REC_VALID = 0` and says nothing of the record registers; any other gives the record of its fields.
Both end with `OK`. The worked example. -/
def Obligations.ParsePublishResult : Prop :=
  decodeCommand 0x21 = .ok .parsePublish ∧
  parseBody bodyQ1 = some recordQ1 ∧
  ∀ (s : State) (p : Bytes) (n topicLen : Nat), p = s.in0Bytes → n = p.length → topicLen = fromLe (slice p 10 2) →
    (n < 12 ∨ n < 12 + topicLen → ∃ t, exec .parsePublish s = .next t ∧
      t = { s with recValid := false, record := t.record, free := t.free, status := 0x00, info := 0 }) ∧
    (12 ≤ n → 12 + topicLen ≤ n → exec .parsePublish s =
      .next { s with
        recValid := true
        record :=
          { nodeId := BitVec.ofNat 64 (fromLe (slice p 0 8)), type := p.getD 8 0, version := p.getD 9 0,
            topicLen := BitVec.ofNat 16 topicLen, topic := slice p 12 topicLen,
            dataLen := BitVec.ofNat 32 (n - (12 + topicLen)), data := p.drop (12 + topicLen) }
        status := 0x00
        info := 0 })

/-- R170: PARSE_PUBLISH on a well-formed body gives back exactly the values it was made of; a short body or a topic length
larger than what remains gives no record. -/
def Obligations.ParseRoundTrip : Prop :=
  (∀ p : Bytes, p.length < 12 → ParsesTo p none) ∧
  (∀ (n : NodeId) (y v : Byte) (len : Half) (r : Bytes), r.length < len.toNat →
    ParsesTo (le64 n ++ [y, v] ++ le16 len ++ r) none) ∧
  ∀ (n : NodeId) (y v : Byte) (t d : Bytes), t.length ≤ 65535 →
    ParsesTo (le64 n ++ [y, v] ++ le16 (BitVec.ofNat 16 t.length) ++ t ++ d)
      (some { nodeId := n, type := y, version := v, topicLen := BitVec.ofNat 16 t.length, topic := t,
              dataLen := BitVec.ofNat 32 d.length, data := d })

/-- R70: what the block's parser sees of the frames the block builds, unstuffed. -/
def Obligations.OwnFramesParse : Prop :=
  ∀ (n : NodeId) (t : Bytes), t.length ≤ 65535 → ∃ view : Bytes → Record,
    (∀ rest, view rest = { nodeId := n, type := 0x01, version := 0x01, topicLen := BitVec.ofNat 16 t.length, topic := t,
                           dataLen := BitVec.ofNat 32 rest.length, data := rest }) ∧
    (∀ (v : Byte) (d : Bytes),
      parseBody ((encode (.framePublishRaw n t v d)).drop 4) = some (view (v :: d))) ∧
    (∀ f x : Bytes, f.length ≤ 65535 → x.length + 1 ≤ 65535 →
      parseBody ((encode (.framePublishLog n t f x)).drop 4) =
        some (view (List.replicate 8 0x00 ++ le16 (BitVec.ofNat 16 f.length) ++ le16 (BitVec.ofNat 16 (x.length + 1))
          ++ f ++ x ++ [0x0A]))) ∧
    (∀ x : Bytes, x.length + 1 ≤ 65535 →
      parseBody ((encode (.framePublishPrint n t x)).drop 4) =
        some (view (List.replicate 8 0x00 ++ [0x00, 0x00] ++ le16 (BitVec.ofNat 16 (x.length + 1)) ++ x ++ [0x0A])))

/-! ### The registry and the dispatcher -/

/-- R177 to R179: REGISTER. A handle already present changes nothing, even in a full registry; a new one is refused by a
full registry and otherwise goes to the end. -/
def Obligations.RegisterResult : Prop :=
  decodeCommand 0x30 = .ok .register ∧
  ∀ s : State,
    (s.handle ∈ s.regy → exec .register s = .next { s with status := 0x00, info := 0 }) ∧
    (s.handle ∉ s.regy → s.params.maxConsumers = some s.regy.length → exec .register s =
      .next { s with status := 0x04, info := BitVec.ofNat 32 s.regy.length }) ∧
    (s.handle ∉ s.regy → s.params.maxConsumers ≠ some s.regy.length → exec .register s =
      .next { s with regy := s.regy ++ [s.handle], status := 0x00, info := 0 })

/-- R20, R175, R177: a step leaves the registry as it is, unless it is a REGISTER, which may append its handle, one the
registry does not hold, or a reset, which empties it; and every instruction but REGISTER completes with it unchanged. -/
def Obligations.RegistryOnlyGrows : Prop :=
  (∀ s t : State, step s = .next t →
    t.regy = s.regy ∨
    (∃ v rest, s.busy = false ∧ s.inputs = .host (.write .cmd v) :: rest ∧
      decode .command [BitVec.ofNat 8 v] = .ok .register ∧ s.handle ∉ s.regy ∧ t.regy = s.regy ++ [s.handle]) ∨
    ∃ node rest, s.inputs = .host (.reset node) :: rest ∧ t.regy = []) ∧
  ∀ (i : Instr) (s : State), i ≠ .register → ∃ t, exec i s = .next t ∧ t.regy = s.regy

/-- R181, R183: DISPATCH of a valid record invokes every registered handle with it and records each outcome; the codes a
consumer tries to write are only noted as refused (R185; the list is the model's, assumption 4). Without a record nobody is invoked. -/
def Obligations.DispatchResult : Prop :=
  decodeCommand 0x31 = .ok .dispatch ∧
  (∀ s : State, s.recValid = true → s.regy.length ≤ s.consumers.length → exec .dispatch s =
    .next { s with
      cbTrace := s.cbTrace ++
        List.zipWith (fun h a => { handle := h, record := s.record, outcome := a.outcome }) s.regy s.consumers
      busyTrace := s.busyTrace ++ ((s.consumers.take s.regy.length).map InvokeAnswer.cmdWrites).flatten
      consumers := s.consumers.drop s.regy.length
      dispatched := BitVec.ofNat 32 s.regy.length
      status := 0x00
      info := 0 }) ∧
  ∀ s : State, s.recValid = false → exec .dispatch s = .next { s with dispatched := 0, status := 0x07, info := 0 }

/-- R182, R183, R184: whatever the consumers answer, each registered one is invoked exactly once, in registration order,
with the whole record; `STATUS` is `OK`, the registry and the record are unchanged, and no topic is compared. -/
def Obligations.EveryConsumerInvokedOnceInOrder : Prop :=
  ∀ s : State, s.recValid = true → ∃ t items, exec .dispatch s = .next t ∧ t.cbTrace = s.cbTrace ++ items ∧
    items.map CbItem.handle = s.regy ∧ (∀ i ∈ items, i.record = s.record) ∧ t.status = 0x00 ∧ t.info = 0 ∧
    t.regy = s.regy ∧ t.record = s.record ∧ t.recValid = true ∧ t.dispatched = BitVec.ofNat 32 s.regy.length

/-- R185: what a consumer tries to write to `CMD` while it is invoked changes nothing but the record of refusals. -/
def Obligations.CommandsFromConsumersAreRefused : Prop :=
  ∀ (s : State) (quietly : List InvokeAnswer), s.regy.length ≤ s.consumers.length →
    quietly = s.consumers.map (fun a => { a with cmdWrites := [] }) →
    ∃ t t', exec .dispatch s = .next t ∧ exec .dispatch { s with consumers := quietly } = .next t' ∧
      t' = { t with busyTrace := s.busyTrace, consumers := t'.consumers }

/-! ### POLL -/

/-- R186 to R190: POLL on a burst. It ends with `OK`, `ACC` holds the burst, and either the burst is discarded (overflow,
shorter than a header, another type, no record in it), with `REC_VALID = 0` and nobody invoked, or the record of everything
after its header is dispatched to all registered consumers. -/
def Obligations.PollJudgesBurst : Prop :=
  decodeCommand 0x32 = .ok .poll ∧
  ∀ (s : State) (line : List (Nat × Byte)) (rest : List Input) (burst : Bytes),
    (∀ x ∈ line, x.1 ≤ s.idleTimeout.toNat) →
    s.inputs = arrivals line ++ silence (s.idleTimeout.toNat + 1) ++ rest → burst = line.map Prod.snd →
    ∃ t, exec .poll s = .next t ∧ t.status = 0x00 ∧ t.info = 0 ∧ t.busy = false ∧ t.inputs = rest ∧
      t.acc = cut s.params.rxMax burst ∧ t.rxOvf = overflows s.params.rxMax burst.length ∧ t.regy = s.regy ∧
      Judged s burst (overflows s.params.rxMax burst.length) t

/-- R186, R188: a POLL whose line delivers the bytes of an inbound publish frame does exactly what the model gives that
frame as its meaning (assumption 2). -/
def Obligations.PollExecutesInboundFrame : Prop :=
  ∀ (s : State) (r : Byte) (c : Half) (n : NodeId) (y v : Byte) (topic data : Bytes) (line : List (Nat × Byte))
    (rest : List Input), (∀ x ∈ line, x.1 ≤ s.idleTimeout.toNat) →
    line.map Prod.snd = encode (.framePublishInbound r c n y v topic data) →
    s.inputs = arrivals line ++ silence (s.idleTimeout.toNat + 1) ++ rest →
    exec .poll s = exec (.framePublishInbound r c n y v topic data) { s with inputs := rest }

/-- R189: two bursts that differ only in bytes 1 to 3, the reserved byte and the checksum, have the same outcome in everything
but the bytes that stand in `ACC`. -/
def Obligations.InboundChecksumIsNotVerified : Prop :=
  ∀ (s s' : State) (line line' : List (Nat × Byte)) (rest : List Input),
    (∀ x ∈ line, x.1 ≤ s.idleTimeout.toNat) → line'.map Prod.fst = line.map Prod.fst →
    (∀ k, k = 0 ∨ 4 ≤ k → (line'.map Prod.snd)[k]? = (line.map Prod.snd)[k]?) →
    s.inputs = arrivals line ++ silence (s.idleTimeout.toNat + 1) ++ rest →
    s' = { s with inputs := arrivals line' ++ silence (s.idleTimeout.toNat + 1) ++ rest } →
    ∃ t t', exec .poll s = .next t ∧ exec .poll s' = .next t' ∧ { t with acc := [] } = { t' with acc := [] }

/-- R191: POLL leaves the record registers, `DISPATCHED` and `CBTRACE` as the sequence READ_BURST, the header checks, the
copy of the rest to `IN0`, PARSE_PUBLISH, DISPATCH does. -/
def Obligations.PollIsComposition : Prop :=
  ∀ (s s1 s2 s3 s4 : State), exec .readBurst s = .next s1 → s1.busy = false → s1.status = 0x00 →
    s1.rxOvf = false → 4 ≤ s1.acc.length → s1.acc.getD 0 0 = 0x02 →
    s2.in0Bytes = s1.acc.drop 4 → s2 = { s1 with in0 := s2.in0 } →
    exec .parsePublish s2 = .next s3 → s3.recValid = true → exec .dispatch s3 = .next s4 →
    ∃ t, exec .poll s = .next t ∧ t.recValid = s4.recValid ∧ t.record = s4.record ∧ t.dispatched = s4.dispatched ∧
      t.cbTrace = s4.cbTrace ∧ t.status = s4.status

/-! ### The frame rows -/

/-- R65 to R68, R115, R116: an outbound frame that is well-formed and fits `FBUF` is prepared whole: its encoding, checksum
written, in `FBUF`, and its wire image in `TXBUF`; nothing else changes. One that does not fit is refused with its length
(R118). That this is the meaning of a frame row is the model's choice (assumption 2). -/
def Obligations.OutboundFramesArePrepared : Prop :=
  ∀ (s : State) (f : Instr), f.wellFormed = true →
    (tableOf f = .subscribe ∨ tableOf f = .publishRaw ∨ tableOf f = .publishLog ∨ tableOf f = .publishPrint) →
    (fits s.params.frameMax (encode f).length = true →
      exec f s = .next { s with fbuf := encode f, txbuf := stuff (encode f) ++ [0x00] }) ∧
    (fits s.params.frameMax (encode f).length = false → exec f s = .next (s.tooLong (encode f).length))

/-- R69, R160, R186: a well-formed inbound publish frame that fits `ACC` yields the record of its fields, dispatched to
every registered consumer; the model's choice for the frame row (assumption 2). -/
def Obligations.InboundFrameIsDispatched : Prop :=
  ∀ (s : State) (r : Byte) (c : Half) (n : NodeId) (y v : Byte) (topic data : Bytes) (rec : Record),
    topic.length ≤ 65535 → fits s.params.rxMax (16 + topic.length + data.length) = true →
    s.regy.length ≤ s.consumers.length →
    rec = { nodeId := n, type := y, version := v, topicLen := BitVec.ofNat 16 topic.length, topic := topic,
            dataLen := BitVec.ofNat 32 data.length, data := data } →
    exec (.framePublishInbound r c n y v topic data) s = .next
      { s with
        acc := encode (.framePublishInbound r c n y v topic data)
        rxOvf := false
        activity := .ready
        recValid := true
        record := rec
        free := { s.free with record := s.free.record + 1 }
        cbTrace := s.cbTrace ++
          List.zipWith (fun h a => { handle := h, record := rec, outcome := a.outcome }) s.regy s.consumers
        busyTrace := s.busyTrace ++ ((s.consumers.take s.regy.length).map InvokeAnswer.cmdWrites).flatten
        consumers := s.consumers.drop s.regy.length
        dispatched := BitVec.ofNat 32 s.regy.length
        status := 0x00
        info := 0 }

/-! ### Encoding -/

/-- R74, R75, R65 to R69: decoding the encoding of any well-formed instruction gives it back, whatever its operands.
The decoder of the frame tables is the model's (assumption 23). -/
def Obligations.DecodeOfEncode : Prop :=
  ∀ i : Instr, i.wellFormed = true → decode (tableOf i) (encode i) = .ok i

/-- R74, R65 to R69: bytes that decode are the encoding of what they decode to, which is well-formed and of that table:
no byte is dropped. The spec has no decoder of outbound frames: that the frame tables accept nothing but encodings is the
model's choice (assumption 23). -/
def Obligations.EncodeOfDecode : Prop :=
  ∀ (t : Table) (bytes : Bytes) (i : Instr), decode t bytes = .ok i →
    tableOf i = t ∧ i.wellFormed = true ∧ encode i = bytes

/-- R75, R76: the eleven codes and their commands; every other code is unassigned. -/
def Obligations.CommandCodes : Prop :=
  decodeCommand 0x01 = .ok .checksum ∧ decodeCommand 0x02 = .ok .stuff ∧ decodeCommand 0x10 = .ok .buildSubscribe ∧
  decodeCommand 0x11 = .ok .buildPublishRaw ∧ decodeCommand 0x12 = .ok .buildPublishLog ∧
  decodeCommand 0x13 = .ok .buildPublishPrint ∧ decodeCommand 0x20 = .ok .readBurst ∧
  decodeCommand 0x21 = .ok .parsePublish ∧ decodeCommand 0x30 = .ok .register ∧ decodeCommand 0x31 = .ok .dispatch ∧
  decodeCommand 0x32 = .ok .poll ∧
  ∀ c : Byte, c ∉ ([0x01, 0x02, 0x10, 0x11, 0x12, 0x13, 0x20, 0x21, 0x30, 0x31, 0x32] : Bytes) →
    decodeCommand c = .error (.unassigned c)

/-- R65 to R69: bytes written out from the layouts decode to the frames they stand for (B2, B5, B8 and Q6 of the spec's
vectors), by the model's frame decoder (assumption 23). -/
def Obligations.WrittenOutFramesDecode : Prop :=
  decode .subscribe [0x03, 0x00, 0x7D, 0x0C, 0x00, 0x00] = .ok (.frameSubscribe []) ∧
  decode .publishRaw [0x02, 0x00, 0xAF, 0x7D, 0x00, 0x00, 0x00, 0x00, 0x00, 0x00, 0x00, 0x00, 0x01, 0x01, 0x01, 0x00,
    0x74, 0x00] = .ok (.framePublishRaw 0 [0x74] 0x00 []) ∧
  decode .publishPrint [0x02, 0x00, 0xCF, 0x2F, 0x01, 0x00, 0x00, 0x00, 0x00, 0x00, 0x00, 0x00, 0x01, 0x01, 0x01, 0x00,
    0x70, 0x00, 0x00, 0x00, 0x00, 0x00, 0x00, 0x00, 0x00, 0x00, 0x00, 0x01, 0x00, 0x0A] =
      .ok (.framePublishPrint 1 [0x70] []) ∧
  decode .publishInbound [0x02, 0xFF, 0x34, 0x12, 0x00, 0x00, 0x00, 0x00, 0x00, 0x00, 0x00, 0x00, 0x01, 0x01, 0x01,
    0x00, 0x5A] = .ok (.framePublishInbound 0xFF 0x1234 0 0x01 0x01 [0x5A] [])

/-! ### Steps -/

/-- R13, R54: when the next event is a write of `CMD` and the block is idle, the step is the decoded command run in the
state after the write: the event taken, the code latched and the write answered, which are the model's (assumptions 1, 6). -/
def Obligations.StepRunsDecodedCommand : Prop :=
  ∀ (s : State) (v : Nat) (rest : List Input) (i : Instr), s.busy = false →
    s.inputs = .host (.write .cmd v) :: rest → decode .command [BitVec.ofNat 8 v] = .ok i →
    step s = exec i { s with inputs := rest, cmd := BitVec.ofNat 8 v, reply := .done }

/-- R76: a write of an unassigned code to an idle block leaves `ERR_CMD` and the code, and changes nothing else but what
the write itself is in the model: the event taken, the code latched and the reply (assumption 6). -/
def Obligations.UnassignedCodeIsErrCmd : Prop :=
  ∀ (s : State) (c : Byte) (rest : List Input), s.busy = false →
    c ∉ ([0x01, 0x02, 0x10, 0x11, 0x12, 0x13, 0x20, 0x21, 0x30, 0x31, 0x32] : Bytes) →
    s.inputs = .host (.write .cmd c.toNat) :: rest →
    step s = .next { s with inputs := rest, cmd := c, reply := .done, status := 0x06, info := c.setWidth 32 }

/-- R13, R49, R217, R242: while `BUSY = 1` a write of `CMD` is answered with `ERR_BUSY` and its code and disturbs nothing;
no other register, no buffer and no registry entry can be read, `FLAGS` alone can, and shows all its bits (R29). That a write of any other register or of a
buffer is ignored is the model's reading of R242, which speaks of the operand buffers (assumption 16). The reply and the list of
refused codes are the model's (assumption 6). -/
def Obligations.BusyBlockIsNotDisturbed : Prop :=
  ∀ (s : State) (rest : List Input), s.busy = true →
    (∀ v, s.inputs = .host (.write .cmd v) :: rest → step s = .next
      { s with inputs := rest, reply := .errBusy (BitVec.ofNat 8 v), busyTrace := s.busyTrace ++ [BitVec.ofNat 8 v] }) ∧
    (∀ r v, r ≠ .cmd → s.inputs = .host (.write r v) :: rest →
      step s = .next { s with inputs := rest, reply := .ignored }) ∧
    (∀ id off b, s.inputs = .host (.writeBuf id off b) :: rest →
      step s = .next { s with inputs := rest, reply := .ignored }) ∧
    (∀ r, r ≠ .flags → s.inputs = .host (.read r) :: rest →
      step s = .next { s with inputs := rest, reply := .noValue }) ∧
    (∀ id off n, s.inputs = .host (.readBuf id off n) :: rest →
      step s = .next { s with inputs := rest, reply := .noValue }) ∧
    (∀ k, s.inputs = .host (.readEntry k) :: rest →
      step s = .next { s with inputs := rest, reply := .noValue }) ∧
    (s.inputs = .host (.read .flags) :: rest → step s = .next
      { s with inputs := rest, reply := .value (s.rxOvf.toNat * 4 + s.recValid.toNat * 2 + 1) })

/-- R15 to R18, R141, R44, R211: an idle block's `SEED`, `VER` and `HANDLE` take every value of their width, `IDLE_TIMEOUT`
every value but the largest, each length register every value its buffer's capacity allows, with nothing changed but that
register and what lies beyond the new length; read-only registers ignore a write. That bytes written beyond the old length
are kept when it is raised is the model's choice (assumption 14). -/
def Obligations.HostRegisterWrites : Prop :=
  ∀ (s : State) (rest : List Input), s.busy = false →
    (∀ v : Half, s.inputs = .host (.write .seed v.toNat) :: rest →
      step s = .next { s with inputs := rest, reply := .done, seed := v }) ∧
    (∀ v : Byte, s.inputs = .host (.write .ver v.toNat) :: rest →
      step s = .next { s with inputs := rest, reply := .done, ver := v }) ∧
    (∀ h, h < 2 ^ s.params.cbW → s.inputs = .host (.write .handle h) :: rest →
      step s = .next { s with inputs := rest, reply := .done, handle := h }) ∧
    (∀ v : Ticks, s.inputs = .host (.write .idleTimeout v.toNat) :: rest → step s = .next
      (if v.toNat = 2 ^ Config.timeW - 1 then { s with inputs := rest, reply := .ignored }
       else { s with inputs := rest, reply := .done, idleTimeout := v })) ∧
    (∀ x ∈ operandBufs, ∀ v : Word, s.inputs = .host (.write x.2 v.toNat) :: rest →
      (fits s.params.frameMax v.toNat = true → ∃ b : InBuf,
        step s = .next { withOperandBuf s x.1 b with
          inputs := rest, reply := .done, free := { s.free with cell := s.free.cell + 1 } } ∧
        b = { operandBuf s x.1 with len := v.toNat, mem := b.mem } ∧
        ∀ k, k < v.toNat → b.byteAt x.1 k = (operandBuf s x.1).byteAt x.1 k) ∧
      (fits s.params.frameMax v.toNat = false → step s = .next { s with inputs := rest, reply := .ignored })) ∧
    (∀ r v, r ∈ readOnly → s.inputs = .host (.write r v) :: rest →
      step s = .next { s with inputs := rest, reply := .ignored })

/-- R30, R49: a read of a register of the idle block answers its value and changes nothing; `FLAGS` is `RX_OVF`,
`REC_VALID`, `BUSY` from bit 2 down; `REGY[k]` is readable below `REG_COUNT` (R20). What R30 and R33 say must not be read, the
write-only `CMD`, a record register while `REC_VALID = 0` and an entry at or beyond `REG_COUNT`, yields no value in the model
(assumptions 15 and 16). -/
def Obligations.HostRegisterReads : Prop :=
  ∀ (s : State) (rest : List Input), s.busy = false →
    (∀ r v, (r, v) ∈ [(Reg.status, s.status.toNat), (Reg.info, s.info.toNat), (Reg.nodeId, s.nodeId.toNat),
        (Reg.seed, s.seed.toNat), (Reg.crc, s.crc.toNat), (Reg.ver, s.ver.toNat), (Reg.handle, s.handle),
        (Reg.idleTimeout, s.idleTimeout.toNat), (Reg.txCount, s.txCount.toNat),
        (Reg.dispatched, s.dispatched.toNat), (Reg.regCount, s.regy.length % 2 ^ 32),
        (Reg.in0Len, s.in0.len % 2 ^ 32), (Reg.in1Len, s.in1.len % 2 ^ 32), (Reg.in2Len, s.in2.len % 2 ^ 32),
        (Reg.outLen, s.out.length % 2 ^ 32), (Reg.fbufLen, s.fbuf.length % 2 ^ 32),
        (Reg.txbufLen, s.txbuf.length % 2 ^ 32), (Reg.accLen, s.acc.length % 2 ^ 32),
        (Reg.flags, s.rxOvf.toNat * 4 + s.recValid.toNat * 2)] →
      s.inputs = .host (.read r) :: rest → step s = .next { s with inputs := rest, reply := .value v }) ∧
    (∀ r v, (r, v) ∈ [(Reg.recNodeId, s.record.nodeId.toNat), (Reg.recType, s.record.type.toNat),
        (Reg.recVersion, s.record.version.toNat), (Reg.recTopicLen, s.record.topicLen.toNat),
        (Reg.recDataLen, s.record.dataLen.toNat)] →
      s.inputs = .host (.read r) :: rest →
      step s = .next { s with inputs := rest, reply := if s.recValid then .value v else .noValue }) ∧
    (s.inputs = .host (.read .cmd) :: rest → step s = .next { s with inputs := rest, reply := .noValue }) ∧
    ∀ k, s.inputs = .host (.readEntry k) :: rest → step s = .next
      { s with inputs := rest, reply := if h : k < s.regy.length then .value s.regy[k] else .noValue }

/-- R45, R49, R30, R211: after a `MemWrite` to an operand buffer within its capacity every byte written reads back and every
other byte reads as before; the other buffers ignore a write; a `MemRead` of any buffer within its length answers the bytes
and changes nothing. The record buffers yield no value while `REC_VALID = 0`, as R33 forbids to read them (assumption 15). -/
def Obligations.BufferWritesAndReads : Prop :=
  ∀ (s : State) (off : Nat) (rest : List Input), s.busy = false →
    (∀ x ∈ operandBufs, ∀ b : Bytes, fits s.params.frameMax (off + b.length) = true →
      s.inputs = .host (.writeBuf x.1 off b) :: rest → ∃ c : InBuf,
        step s = .next { withOperandBuf s x.1 c with inputs := rest, reply := .done } ∧
        c = { operandBuf s x.1 with mem := c.mem } ∧ (∀ k (h : k < b.length), c.byteAt x.1 (off + k) = b[k]) ∧
        ∀ a, a < off ∨ off + b.length ≤ a → c.byteAt x.1 a = (operandBuf s x.1).byteAt x.1 a) ∧
    (∀ x ∈ resultBufs s, ∀ b : Bytes, s.inputs = .host (.writeBuf x.1 off b) :: rest →
      step s = .next { s with inputs := rest, reply := .ignored }) ∧
    ∀ (id : BufId) (content : Bytes) (n : Nat),
      (id, content) ∈ (.in0, s.in0Bytes) :: (.in1, s.in1Bytes) :: (.in2, s.in2Bytes) :: resultBufs s →
      off + n ≤ content.length → s.inputs = .host (.readBuf id off n) :: rest → step s = .next
        { s with
          inputs := rest
          reply := if (id = .recTopic ∨ id = .recData) ∧ s.recValid = false then .noValue
                   else .bytes ((content.drop off).take n) }

/-- R40, R33, R45: a read that reaches beyond a buffer's length, where nothing is readable, yields no value and changes
nothing (assumption 16); a write beyond an operand buffer's capacity, for which R45 defines no effect, ends the run with a
fault of the model (assumption 7). -/
def Obligations.AccessesOutsideBuffers : Prop :=
  ∀ (s : State) (off : Nat) (rest : List Input), s.busy = false →
    (∀ (id : BufId) (content : Bytes) (n : Nat),
      (id, content) ∈ (.in0, s.in0Bytes) :: (.in1, s.in1Bytes) :: (.in2, s.in2Bytes) :: resultBufs s →
      content.length < off + n → s.inputs = .host (.readBuf id off n) :: rest →
      step s = .next { s with inputs := rest, reply := .noValue }) ∧
    ∀ x ∈ operandBufs, ∀ b : Bytes, fits s.params.frameMax (off + b.length) = false →
      s.inputs = .host (.writeBuf x.1 off b) :: rest → step s = .fault (.writeOutside x.1 off b.length)

/-- R230: a reset, at any time, abandons a running command and puts the state at its reset values with the given
`NODE_ID`; the environment's events and answers stay. -/
def Obligations.ResetAbandonsEverything : Prop :=
  ∀ (s : State) (node : NodeId) (rest : List Input), s.inputs = .host (.reset node) :: rest →
    ∃ t, step s = .next t ∧ t.nodeId = node ∧ t.params = s.params ∧ t.busy = false ∧ t.recValid = false ∧
      t.rxOvf = false ∧ t.regy = [] ∧ t.status = 0x00 ∧ t.info = 0 ∧ t.txCount = 0 ∧ t.dispatched = 0 ∧ t.seed = 0 ∧
      t.crc = 0 ∧ t.ver = 0 ∧ t.handle = 0 ∧ t.idleTimeout = 0 ∧ t.in0.len = 0 ∧ t.in1.len = 0 ∧ t.in2.len = 0 ∧
      t.out = [] ∧ t.fbuf = [] ∧ t.txbuf = [] ∧ t.acc = [] ∧ t.txTrace = [] ∧ t.cbTrace = [] ∧
      t.inputs = rest ∧ t.txAnswers = s.txAnswers ∧ t.consumers = s.consumers

/-- R33, R6: the values the spec gives for reset, whatever parameters the block is constructed with; `State.reset` is the block
constructed with the open ones of `Config`. -/
def Obligations.ResetValues : Prop :=
  State.reset = State.construct Config.params Config.nodeId 0 ∧
  ∀ (p : Params) (node : NodeId) (era : Nat) (t : State), t = State.construct p node era →
    t.params = p ∧ t.nodeId = node ∧ t.regy = [] ∧ t.busy = false ∧ t.recValid = false ∧ t.rxOvf = false ∧
    t.status = 0x00 ∧ t.info = 0 ∧ t.txCount = 0 ∧ t.dispatched = 0 ∧ t.seed = 0 ∧ t.crc = 0 ∧ t.ver = 0 ∧ t.handle = 0 ∧
    t.idleTimeout = 0 ∧ t.in0.len = 0 ∧ t.in1.len = 0 ∧ t.in2.len = 0 ∧ t.out = [] ∧ t.fbuf = [] ∧ t.txbuf = [] ∧
    t.acc = [] ∧ t.txTrace = [] ∧ t.cbTrace = []

/-! ### The whole machine -/

/-- R20, R27, R30, R41, R125, R141: the invariant holds after reset, and of the block constructed with any parameters. -/
def Obligations.ResetMeetsInvariant : Prop :=
  Safety.Inv State.reset ∧
  ∀ (p : Params) (node : NodeId) (era : Nat), Safety.Inv (State.construct p node era)

/-- R20, R27, R30, R41, R125, R141: every step keeps the invariant: every buffer within its capacity, the record's among
them, the operand memories in canonical form, the registry free of duplicates and within its capacity, `IDLE_TIMEOUT` legal,
the idle clock not above it, no record while POLL waits, the last frame's checksum right and its wire image in `TXBUF`. The
topic's capacity is R41's row wherever that row and R160 agree (assumption 18). -/
def Obligations.StepKeepsInvariant : Prop := ∀ s t : State, Safety.Inv s → step s = .next t → Safety.Inv t

/-- R12, R211: `NODE_ID` never changes but by a reset. -/
def Obligations.NodeIdIsFixed : Prop :=
  ∀ s t : State, step s = .next t → t.nodeId = s.nodeId ∨ ∃ node rest, s.inputs = .host (.reset node) :: rest

/-- R59: which command writes which register and buffer. Every command completes; none writes the operands; and each of
the results is written only by its own commands. -/
def Obligations.CommandsWriteOnlyTheirResults : Prop :=
  ∀ (i : Instr) (s : State), tableOf i = .command → ∃ t, exec i s = .next t ∧
    t.in0 = s.in0 ∧ t.in1 = s.in1 ∧ t.in2 = s.in2 ∧ t.seed = s.seed ∧ t.ver = s.ver ∧ t.handle = s.handle ∧
    t.idleTimeout = s.idleTimeout ∧ t.nodeId = s.nodeId ∧ t.params = s.params ∧
    (i ≠ .checksum → t.crc = s.crc) ∧ (i ≠ .stuff → t.out = s.out) ∧
    (i ∉ builders → t.fbuf = s.fbuf ∧ t.txbuf = s.txbuf ∧ t.txCount = s.txCount ∧ t.txTrace = s.txTrace) ∧
    (i ≠ .readBurst → i ≠ .poll → t.acc = s.acc ∧ t.rxOvf = s.rxOvf ∧ t.activity = s.activity ∧ t.inputs = s.inputs) ∧
    (i ≠ .parsePublish → i ≠ .poll → t.recValid = s.recValid ∧ t.record = s.record) ∧
    (i ≠ .register → t.regy = s.regy) ∧
    (i ≠ .dispatch → i ≠ .poll → t.dispatched = s.dispatched ∧ t.cbTrace = s.cbTrace)

/-- R205: which status a command can end with. A command that contains the link reader may also still be busy, `STATUS`
then as before. -/
def Obligations.StatusByCommand : Prop :=
  ∀ s : State,
    (∀ i ∈ ([.checksum, .stuff, .parsePublish] : List Instr), ∃ t, exec i s = .next t ∧ t.status = 0x00 ∧ t.info = 0) ∧
    (∀ i ∈ builders, ∃ t, exec i s = .next t ∧ (t.status = 0x00 ∨ t.status = 0x02 ∨ t.status = 0x03)) ∧
    (∃ t, exec .register s = .next t ∧ (t.status = 0x00 ∨ t.status = 0x04)) ∧
    (∃ t, exec .dispatch s = .next t ∧ (t.status = 0x00 ∨ t.status = 0x07)) ∧
    (∀ i ∈ ([.readBurst, .poll] : List Instr), ∃ t, exec i s = .next t ∧
      (t.status = 0x00 ∨ t.status = 0x01 ∨ (t.busy = true ∧ t.status = s.status ∧ t.info = s.info)))

/-- R31: no step but a reset takes anything out of what was sent or of which consumers were invoked. -/
def Obligations.TracesOnlyGrow : Prop :=
  ∀ s t : State, step s = .next t →
    (s.txTrace <+: t.txTrace ∧ s.cbTrace <+: t.cbTrace) ∨ ∃ node rest, s.inputs = .host (.reset node) :: rest

/-! ### The wait across steps -/

/-- R142, R144, R145, R148, R149, R151, R186: a reader that runs over several steps, in either form of its loop. Arriving
bytes are appended as far as `RX_MAX` allows and clear the idle clock. An iteration without a byte adds its time to the clock as
long as the sum does not exceed `IDLE_TIMEOUT`, and ends the command when it does: `ACC` and `RX_OVF` are the burst, and a POLL
judges it, nothing having been recorded since its start. A failure ends it with `ERR_RX` and no burst. -/
def Obligations.WaitingReaderEnds : Prop :=
  ∀ (s : State) (r : Reading) (e : LineEvent) (rest : List Input), s.activity = .reading r →
    s.inputs = .line e :: rest →
    (∀ b bs, answerOf e = .chunk (b :: bs) → step s = .next
      { s with
        inputs := rest
        activity := .reading
          { forPoll := r.forPoll, idle := 0, acc := (gather s.params.rxMax r.acc r.ovf (b :: bs)).1,
            ovf := (gather s.params.rxMax r.acc r.ovf (b :: bs)).2 } }) ∧
    (answerOf e = .fail → step s = .next
      { s with acc := [], rxOvf := false, activity := .ready, inputs := rest, status := 0x01, info := 0 }) ∧
    (answerOf e = .nothing ∨ answerOf e = .chunk [] →
      (r.idle.toNat + elapsedOf e ≤ s.idleTimeout.toNat → ∃ c : Ticks, c.toNat = r.idle.toNat + elapsedOf e ∧
        step s = .next { s with inputs := rest, activity := .reading { r with idle := c } }) ∧
      (s.idleTimeout.toNat < r.idle.toNat + elapsedOf e → r.forPoll = false → step s = .next
        { s with acc := r.acc, rxOvf := r.ovf, activity := .ready, inputs := rest, status := 0x00, info := 0 }) ∧
      (s.idleTimeout.toNat < r.idle.toNat + elapsedOf e → r.forPoll = true → s.recValid = false → s.dispatched = 0 →
        ∃ t, step s = .next t ∧ t.status = 0x00 ∧ t.info = 0 ∧ t.busy = false ∧ t.inputs = rest ∧ t.acc = r.acc ∧
          t.rxOvf = r.ovf ∧ t.regy = s.regy ∧ Judged s r.acc r.ovf t))
end

