-- ==== Sys2Proof/Laws/Codec.lean ====
section
/-! SUPPORT. The pure functions: byte order, checksum, layouts. -/

namespace Sys2Proof.Machine

open Sys2Proof

@[simp] theorem length_le16 (n : Half) : (le16 n).length = 2 := rfl
@[simp] theorem length_le64 (n : NodeId) : (le64 n).length = 8 := rfl
@[simp] theorem length_lenField (s : Bytes) : (lenField s).length = 2 := rfl
@[simp] theorem length_textField (s : Bytes) : (textField s).length = 2 := rfl
@[simp] theorem length_header (t : Byte) : (header t).length = 4 := rfl
@[simp] theorem length_pubHdr (n : NodeId) : (pubHdr n).length = 14 := rfl
@[simp] theorem length_reserved8 : reserved8.length = 8 := rfl

/-- `from_le` of a `u16` written low byte first is its value (R46). -/
@[simp] theorem fromLe_le16 (n : Half) : fromLe (le16 n) = n.toNat := by
  simp only [le16, lo8, hi8, fromLe, BitVec.extractLsb'_toNat, Nat.shiftRight_eq_div_pow]
  have := n.isLt
  omega

/-- `from_le` of a `u64` written low byte first is its value (R46). -/
@[simp] theorem fromLe_le64 (n : NodeId) : fromLe (le64 n) = n.toNat := by
  simp only [le64, fromLe, BitVec.extractLsb'_toNat, Nat.shiftRight_eq_div_pow]
  have := n.isLt
  omega

/-- A slice has the length asked for, or what is left. -/
@[simp] theorem length_slice (s : Bytes) (off n : Nat) : (slice s off n).length = min n (s.length - off) := by
  simp [slice]

@[simp] theorem length_setChecksum (f : Bytes) (c : Half) : (setChecksum f c).length = f.length := by
  simp [setChecksum]

/-- FINALIZE keeps the frame's length (R116). -/
@[simp] theorem length_finalizeFrame (f : Bytes) : (finalizeFrame f).length = f.length := by simp [finalizeFrame]

/-- The lengths of the frames (R124). -/
@[simp] theorem length_subscribeFrame (t : Bytes) : (subscribeFrame t).length = 6 + t.length := by
  simp [subscribeFrame]; omega

@[simp] theorem length_rawFrame (n : NodeId) (t : Bytes) (v : Byte) (d : Bytes) :
    (rawFrame n t v d).length = 17 + t.length + d.length := by simp [rawFrame]; omega

@[simp] theorem length_logFrame (n : NodeId) (t f x : Bytes) :
    (logFrame n t f x).length = 29 + t.length + f.length + x.length := by simp [logFrame]; omega

@[simp] theorem length_printFrame (n : NodeId) (t x : Bytes) :
    (printFrame n t x).length = 29 + t.length + x.length := by simp [printFrame]; omega

@[simp] theorem length_inboundFrame (r : Byte) (c : Half) (n : NodeId) (y v : Byte) (t d : Bytes) :
    (inboundFrame r c n y v t d).length = 16 + t.length + d.length := by simp [inboundFrame]; omega

/-- A print frame is the log frame with an empty filename (R68, R122). -/
theorem printFrame_eq_logFrame (n : NodeId) (t x : Bytes) : printFrame n t x = logFrame n t [] x := by
  simp [printFrame, logFrame, lenField, le16, lo8, hi8]

/-- The running value of the empty sequence (R92). -/
@[simp] theorem checksum_nil (s : Half) : checksum s [] = s := rfl

/-- One byte of the running value (R91). -/
@[simp] theorem checksum_cons (s : Half) (b : Byte) (m : Bytes) : checksum s (b :: m) = checksum (crcStep s b) m := rfl

/-- The scan at the end of the input: the unconditional flush (R104). -/
@[simp] theorem stuffFrom_nil (p : Bytes) : stuffFrom p [] = segment p := rfl

/-- The scan at one byte: delimiter (R102), 254th pending byte (R103), or pending. -/
theorem stuffFrom_cons (p : Bytes) (b : Byte) (rest : Bytes) :
    stuffFrom p (b :: rest) =
      if b = delimiter then segment p ++ stuffFrom [] rest
      else if p.length + 1 = segmentCap then segment (p ++ [b]) ++ stuffFrom [] rest
      else stuffFrom (p ++ [b]) rest := rfl

/-- What `parseBody` can answer, once for all (R160): nothing for a short body or a topic that overruns it, else the
fields. -/
theorem parseBody_cases (p : Bytes) :
    (p.length < 12 ∧ parseBody p = none) ∨
    (12 ≤ p.length ∧ p.length < 12 + fromLe (slice p 10 2) ∧ parseBody p = none) ∨
    (12 + fromLe (slice p 10 2) ≤ p.length ∧ ∃ r, parseBody p = some r ∧
      r.nodeId = BitVec.ofNat 64 (fromLe (slice p 0 8)) ∧ r.type = p.getD 8 0 ∧ r.version = p.getD 9 0 ∧
      r.topicLen = BitVec.ofNat 16 (fromLe (slice p 10 2)) ∧ r.topic = slice p 12 (fromLe (slice p 10 2)) ∧
      r.dataLen = BitVec.ofNat 32 (p.length - (12 + fromLe (slice p 10 2))) ∧
      r.data = p.drop (12 + fromLe (slice p 10 2))) := by
  by_cases h : p.length < 12
  · exact .inl ⟨h, by simp [parseBody, h]⟩
  · by_cases h2 : 12 + fromLe (slice p 10 2) > p.length
    · exact .inr (.inl ⟨by omega, by omega, by simp only [parseBody, h, h2, if_true, if_false]⟩)
    · refine .inr (.inr ⟨by omega, _, (by unfold parseBody; rw [if_neg h]; exact if_neg h2),
        rfl, rfl, rfl, rfl, rfl, rfl, rfl⟩)

/-- What the length check answers when nothing is too long (R118). -/
theorem lengthCheck_eq_none_iff (cap : Option Nat) (ops : List (Nat × Nat)) (total : Nat) :
    lengthCheck cap ops total = none ↔ (∀ o ∈ ops, o.1 ≤ o.2) ∧ fits cap total = true := by
  induction ops with
  | nil => unfold lengthCheck; split <;> simp_all
  | cons o rest ih =>
    unfold lengthCheck
    simp only [List.mem_cons, forall_eq_or_imp]
    split
    · constructor
      · intro h; cases h
      · rintro ⟨⟨h, _⟩, _⟩; omega
    · rw [ih]; constructor
      · rintro ⟨h1, h2⟩; exact ⟨⟨by omega, h1⟩, h2⟩
      · rintro ⟨⟨_, h1⟩, h2⟩; exact ⟨h1, h2⟩

end Sys2Proof.Machine
end

