-- ==== Sys2Proof/Laws/State.lean ====
section
/-! SUPPORT. What each named update of the state writes and leaves: one lemma per field per update. -/

namespace Sys2Proof.Machine

open Sys2Proof

/-- `READ_CHUNK` is at least 1 (R6). -/
theorem readChunk_pos : 1 ≤ Config.readChunk := Nat.le_add_left 1 _

/-- `TICK_HZ` is positive (D11). -/
theorem tickHz_pos : 0 < Config.tickHz := Nat.succ_pos _

/-- The well-known topics fit their length field (D27). -/
theorem length_topics :
    Config.topicTx.length ≤ 65535 ∧ Config.topicLog.length ≤ 65535 ∧ Config.topicPrint.length ≤ 65535 :=
  ⟨List.length_take_le _ _, List.length_take_le _ _, List.length_take_le _ _⟩

/-- With one capacity for both directions R41's row holds every topic R160 accepts. -/
theorem Params.topicsFit_of_eq {p : Params} (h : p.rxMax = p.frameMax) : p.topicsFit = true := by
  refine decide_eq_true ?_
  unfold Params.longestTopic Params.topicRow
  rw [h]
  cases p.frameMax <;> simp only [Option.getD_none, Option.getD_some] <;> omega

/-- Where R41's row holds every topic R160 accepts, it is the capacity of `REC_TOPIC`. -/
theorem Params.topicCapacity_eq_topicRow {p : Params} (h : p.topicsFit = true) : p.topicCapacity = p.topicRow :=
  Nat.max_eq_left (of_decide_eq_true h)

/-- A topic that comes to the parser from `IN0` or from `ACC` fits `REC_TOPIC`, whatever the parameters. -/
theorem Params.fits_topicCapacity {p : Params} {t : Nat} (ht : t ≤ 65535)
    (hin : fits p.frameMax (12 + t) = true ∨ fits p.rxMax (16 + t) = true) : t ≤ p.topicCapacity := by
  refine Nat.le_trans ?_ (Nat.le_max_right _ _)
  unfold Params.longestTopic
  rcases p with ⟨f, r, _, _⟩
  cases f <;> cases r <;>
    simp only [fits, decide_eq_true_eq, Option.getD_none, Option.getD_some, true_or, or_true] at hin ⊢ <;> omega

/-! ### `finish` writes `STATUS` and `INFO` (R14). -/

@[simp] theorem State.finish_params (s : State) (st : Status) (info : Nat) : (s.finish st info).params = s.params := rfl
@[simp] theorem State.finish_nodeId (s : State) (st : Status) (info : Nat) : (s.finish st info).nodeId = s.nodeId := rfl
@[simp] theorem State.finish_cmd (s : State) (st : Status) (info : Nat) : (s.finish st info).cmd = s.cmd := rfl
@[simp] theorem State.finish_status (s : State) (st : Status) (info : Nat) : (s.finish st info).status = st.code := rfl
@[simp] theorem State.finish_info (s : State) (st : Status) (info : Nat) : (s.finish st info).info = BitVec.ofNat 32 info := rfl
@[simp] theorem State.finish_seed (s : State) (st : Status) (info : Nat) : (s.finish st info).seed = s.seed := rfl
@[simp] theorem State.finish_crc (s : State) (st : Status) (info : Nat) : (s.finish st info).crc = s.crc := rfl
@[simp] theorem State.finish_ver (s : State) (st : Status) (info : Nat) : (s.finish st info).ver = s.ver := rfl
@[simp] theorem State.finish_handle (s : State) (st : Status) (info : Nat) : (s.finish st info).handle = s.handle := rfl
@[simp] theorem State.finish_idleTimeout (s : State) (st : Status) (info : Nat) : (s.finish st info).idleTimeout = s.idleTimeout := rfl
@[simp] theorem State.finish_txCount (s : State) (st : Status) (info : Nat) : (s.finish st info).txCount = s.txCount := rfl
@[simp] theorem State.finish_regy (s : State) (st : Status) (info : Nat) : (s.finish st info).regy = s.regy := rfl
@[simp] theorem State.finish_dispatched (s : State) (st : Status) (info : Nat) : (s.finish st info).dispatched = s.dispatched := rfl
@[simp] theorem State.finish_recValid (s : State) (st : Status) (info : Nat) : (s.finish st info).recValid = s.recValid := rfl
@[simp] theorem State.finish_record (s : State) (st : Status) (info : Nat) : (s.finish st info).record = s.record := rfl
@[simp] theorem State.finish_rxOvf (s : State) (st : Status) (info : Nat) : (s.finish st info).rxOvf = s.rxOvf := rfl
@[simp] theorem State.finish_in0 (s : State) (st : Status) (info : Nat) : (s.finish st info).in0 = s.in0 := rfl
@[simp] theorem State.finish_in1 (s : State) (st : Status) (info : Nat) : (s.finish st info).in1 = s.in1 := rfl
@[simp] theorem State.finish_in2 (s : State) (st : Status) (info : Nat) : (s.finish st info).in2 = s.in2 := rfl
@[simp] theorem State.finish_out (s : State) (st : Status) (info : Nat) : (s.finish st info).out = s.out := rfl
@[simp] theorem State.finish_fbuf (s : State) (st : Status) (info : Nat) : (s.finish st info).fbuf = s.fbuf := rfl
@[simp] theorem State.finish_txbuf (s : State) (st : Status) (info : Nat) : (s.finish st info).txbuf = s.txbuf := rfl
@[simp] theorem State.finish_acc (s : State) (st : Status) (info : Nat) : (s.finish st info).acc = s.acc := rfl
@[simp] theorem State.finish_activity (s : State) (st : Status) (info : Nat) : (s.finish st info).activity = s.activity := rfl
@[simp] theorem State.finish_txTrace (s : State) (st : Status) (info : Nat) : (s.finish st info).txTrace = s.txTrace := rfl
@[simp] theorem State.finish_cbTrace (s : State) (st : Status) (info : Nat) : (s.finish st info).cbTrace = s.cbTrace := rfl
@[simp] theorem State.finish_inputs (s : State) (st : Status) (info : Nat) : (s.finish st info).inputs = s.inputs := rfl
@[simp] theorem State.finish_txAnswers (s : State) (st : Status) (info : Nat) : (s.finish st info).txAnswers = s.txAnswers := rfl
@[simp] theorem State.finish_consumers (s : State) (st : Status) (info : Nat) : (s.finish st info).consumers = s.consumers := rfl
@[simp] theorem State.finish_reply (s : State) (st : Status) (info : Nat) : (s.finish st info).reply = s.reply := rfl
@[simp] theorem State.finish_busyTrace (s : State) (st : Status) (info : Nat) : (s.finish st info).busyTrace = s.busyTrace := rfl
@[simp] theorem State.finish_free (s : State) (st : Status) (info : Nat) : (s.finish st info).free = s.free := rfl

/-! ### `dropRecord` writes `REC_VALID` and the record registers (R169). -/

@[simp] theorem State.dropRecord_params (s : State) : s.dropRecord.params = s.params := rfl
@[simp] theorem State.dropRecord_nodeId (s : State) : s.dropRecord.nodeId = s.nodeId := rfl
@[simp] theorem State.dropRecord_cmd (s : State) : s.dropRecord.cmd = s.cmd := rfl
@[simp] theorem State.dropRecord_status (s : State) : s.dropRecord.status = s.status := rfl
@[simp] theorem State.dropRecord_info (s : State) : s.dropRecord.info = s.info := rfl
@[simp] theorem State.dropRecord_seed (s : State) : s.dropRecord.seed = s.seed := rfl
@[simp] theorem State.dropRecord_crc (s : State) : s.dropRecord.crc = s.crc := rfl
@[simp] theorem State.dropRecord_ver (s : State) : s.dropRecord.ver = s.ver := rfl
@[simp] theorem State.dropRecord_handle (s : State) : s.dropRecord.handle = s.handle := rfl
@[simp] theorem State.dropRecord_idleTimeout (s : State) : s.dropRecord.idleTimeout = s.idleTimeout := rfl
@[simp] theorem State.dropRecord_txCount (s : State) : s.dropRecord.txCount = s.txCount := rfl
@[simp] theorem State.dropRecord_regy (s : State) : s.dropRecord.regy = s.regy := rfl
@[simp] theorem State.dropRecord_dispatched (s : State) : s.dropRecord.dispatched = s.dispatched := rfl
@[simp] theorem State.dropRecord_recValid (s : State) : s.dropRecord.recValid = false := rfl
@[simp] theorem State.dropRecord_record (s : State) : s.dropRecord.record = Config.freeRecord s.free.record := rfl
@[simp] theorem State.dropRecord_rxOvf (s : State) : s.dropRecord.rxOvf = s.rxOvf := rfl
@[simp] theorem State.dropRecord_in0 (s : State) : s.dropRecord.in0 = s.in0 := rfl
@[simp] theorem State.dropRecord_in1 (s : State) : s.dropRecord.in1 = s.in1 := rfl
@[simp] theorem State.dropRecord_in2 (s : State) : s.dropRecord.in2 = s.in2 := rfl
@[simp] theorem State.dropRecord_out (s : State) : s.dropRecord.out = s.out := rfl
@[simp] theorem State.dropRecord_fbuf (s : State) : s.dropRecord.fbuf = s.fbuf := rfl
@[simp] theorem State.dropRecord_txbuf (s : State) : s.dropRecord.txbuf = s.txbuf := rfl
@[simp] theorem State.dropRecord_acc (s : State) : s.dropRecord.acc = s.acc := rfl
@[simp] theorem State.dropRecord_activity (s : State) : s.dropRecord.activity = s.activity := rfl
@[simp] theorem State.dropRecord_txTrace (s : State) : s.dropRecord.txTrace = s.txTrace := rfl
@[simp] theorem State.dropRecord_cbTrace (s : State) : s.dropRecord.cbTrace = s.cbTrace := rfl
@[simp] theorem State.dropRecord_inputs (s : State) : s.dropRecord.inputs = s.inputs := rfl
@[simp] theorem State.dropRecord_txAnswers (s : State) : s.dropRecord.txAnswers = s.txAnswers := rfl
@[simp] theorem State.dropRecord_consumers (s : State) : s.dropRecord.consumers = s.consumers := rfl
@[simp] theorem State.dropRecord_reply (s : State) : s.dropRecord.reply = s.reply := rfl
@[simp] theorem State.dropRecord_busyTrace (s : State) : s.dropRecord.busyTrace = s.busyTrace := rfl
@[simp] theorem State.dropRecord_free (s : State) : s.dropRecord.free = { s.free with record := s.free.record + 1 } := rfl

/-! ### `setRecord` writes `REC_VALID` and the record registers (R160). -/

@[simp] theorem State.setRecord_params (s : State) (r : Record) : (s.setRecord r).params = s.params := rfl
@[simp] theorem State.setRecord_nodeId (s : State) (r : Record) : (s.setRecord r).nodeId = s.nodeId := rfl
@[simp] theorem State.setRecord_cmd (s : State) (r : Record) : (s.setRecord r).cmd = s.cmd := rfl
@[simp] theorem State.setRecord_status (s : State) (r : Record) : (s.setRecord r).status = s.status := rfl
@[simp] theorem State.setRecord_info (s : State) (r : Record) : (s.setRecord r).info = s.info := rfl
@[simp] theorem State.setRecord_seed (s : State) (r : Record) : (s.setRecord r).seed = s.seed := rfl
@[simp] theorem State.setRecord_crc (s : State) (r : Record) : (s.setRecord r).crc = s.crc := rfl
@[simp] theorem State.setRecord_ver (s : State) (r : Record) : (s.setRecord r).ver = s.ver := rfl
@[simp] theorem State.setRecord_handle (s : State) (r : Record) : (s.setRecord r).handle = s.handle := rfl
@[simp] theorem State.setRecord_idleTimeout (s : State) (r : Record) : (s.setRecord r).idleTimeout = s.idleTimeout := rfl
@[simp] theorem State.setRecord_txCount (s : State) (r : Record) : (s.setRecord r).txCount = s.txCount := rfl
@[simp] theorem State.setRecord_regy (s : State) (r : Record) : (s.setRecord r).regy = s.regy := rfl
@[simp] theorem State.setRecord_dispatched (s : State) (r : Record) : (s.setRecord r).dispatched = s.dispatched := rfl
@[simp] theorem State.setRecord_recValid (s : State) (r : Record) : (s.setRecord r).recValid = true := rfl
@[simp] theorem State.setRecord_record (s : State) (r : Record) : (s.setRecord r).record = r := rfl
@[simp] theorem State.setRecord_rxOvf (s : State) (r : Record) : (s.setRecord r).rxOvf = s.rxOvf := rfl
@[simp] theorem State.setRecord_in0 (s : State) (r : Record) : (s.setRecord r).in0 = s.in0 := rfl
@[simp] theorem State.setRecord_in1 (s : State) (r : Record) : (s.setRecord r).in1 = s.in1 := rfl
@[simp] theorem State.setRecord_in2 (s : State) (r : Record) : (s.setRecord r).in2 = s.in2 := rfl
@[simp] theorem State.setRecord_out (s : State) (r : Record) : (s.setRecord r).out = s.out := rfl
@[simp] theorem State.setRecord_fbuf (s : State) (r : Record) : (s.setRecord r).fbuf = s.fbuf := rfl
@[simp] theorem State.setRecord_txbuf (s : State) (r : Record) : (s.setRecord r).txbuf = s.txbuf := rfl
@[simp] theorem State.setRecord_acc (s : State) (r : Record) : (s.setRecord r).acc = s.acc := rfl
@[simp] theorem State.setRecord_activity (s : State) (r : Record) : (s.setRecord r).activity = s.activity := rfl
@[simp] theorem State.setRecord_txTrace (s : State) (r : Record) : (s.setRecord r).txTrace = s.txTrace := rfl
@[simp] theorem State.setRecord_cbTrace (s : State) (r : Record) : (s.setRecord r).cbTrace = s.cbTrace := rfl
@[simp] theorem State.setRecord_inputs (s : State) (r : Record) : (s.setRecord r).inputs = s.inputs := rfl
@[simp] theorem State.setRecord_txAnswers (s : State) (r : Record) : (s.setRecord r).txAnswers = s.txAnswers := rfl
@[simp] theorem State.setRecord_consumers (s : State) (r : Record) : (s.setRecord r).consumers = s.consumers := rfl
@[simp] theorem State.setRecord_reply (s : State) (r : Record) : (s.setRecord r).reply = s.reply := rfl
@[simp] theorem State.setRecord_busyTrace (s : State) (r : Record) : (s.setRecord r).busyTrace = s.busyTrace := rfl
@[simp] theorem State.setRecord_free (s : State) (r : Record) : (s.setRecord r).free = s.free := rfl

/-! ### `assemble` writes `FBUF` and `TXBUF` (R115). -/

@[simp] theorem State.assemble_params (s : State) (f : Bytes) : (s.assemble f).params = s.params := rfl
@[simp] theorem State.assemble_nodeId (s : State) (f : Bytes) : (s.assemble f).nodeId = s.nodeId := rfl
@[simp] theorem State.assemble_cmd (s : State) (f : Bytes) : (s.assemble f).cmd = s.cmd := rfl
@[simp] theorem State.assemble_status (s : State) (f : Bytes) : (s.assemble f).status = s.status := rfl
@[simp] theorem State.assemble_info (s : State) (f : Bytes) : (s.assemble f).info = s.info := rfl
@[simp] theorem State.assemble_seed (s : State) (f : Bytes) : (s.assemble f).seed = s.seed := rfl
@[simp] theorem State.assemble_crc (s : State) (f : Bytes) : (s.assemble f).crc = s.crc := rfl
@[simp] theorem State.assemble_ver (s : State) (f : Bytes) : (s.assemble f).ver = s.ver := rfl
@[simp] theorem State.assemble_handle (s : State) (f : Bytes) : (s.assemble f).handle = s.handle := rfl
@[simp] theorem State.assemble_idleTimeout (s : State) (f : Bytes) : (s.assemble f).idleTimeout = s.idleTimeout := rfl
@[simp] theorem State.assemble_txCount (s : State) (f : Bytes) : (s.assemble f).txCount = s.txCount := rfl
@[simp] theorem State.assemble_regy (s : State) (f : Bytes) : (s.assemble f).regy = s.regy := rfl
@[simp] theorem State.assemble_dispatched (s : State) (f : Bytes) : (s.assemble f).dispatched = s.dispatched := rfl
@[simp] theorem State.assemble_recValid (s : State) (f : Bytes) : (s.assemble f).recValid = s.recValid := rfl
@[simp] theorem State.assemble_record (s : State) (f : Bytes) : (s.assemble f).record = s.record := rfl
@[simp] theorem State.assemble_rxOvf (s : State) (f : Bytes) : (s.assemble f).rxOvf = s.rxOvf := rfl
@[simp] theorem State.assemble_in0 (s : State) (f : Bytes) : (s.assemble f).in0 = s.in0 := rfl
@[simp] theorem State.assemble_in1 (s : State) (f : Bytes) : (s.assemble f).in1 = s.in1 := rfl
@[simp] theorem State.assemble_in2 (s : State) (f : Bytes) : (s.assemble f).in2 = s.in2 := rfl
@[simp] theorem State.assemble_out (s : State) (f : Bytes) : (s.assemble f).out = s.out := rfl
@[simp] theorem State.assemble_fbuf (s : State) (f : Bytes) : (s.assemble f).fbuf = finalizeFrame f := rfl
@[simp] theorem State.assemble_txbuf (s : State) (f : Bytes) : (s.assemble f).txbuf = wireImage (finalizeFrame f) := rfl
@[simp] theorem State.assemble_acc (s : State) (f : Bytes) : (s.assemble f).acc = s.acc := rfl
@[simp] theorem State.assemble_activity (s : State) (f : Bytes) : (s.assemble f).activity = s.activity := rfl
@[simp] theorem State.assemble_txTrace (s : State) (f : Bytes) : (s.assemble f).txTrace = s.txTrace := rfl
@[simp] theorem State.assemble_cbTrace (s : State) (f : Bytes) : (s.assemble f).cbTrace = s.cbTrace := rfl
@[simp] theorem State.assemble_inputs (s : State) (f : Bytes) : (s.assemble f).inputs = s.inputs := rfl
@[simp] theorem State.assemble_txAnswers (s : State) (f : Bytes) : (s.assemble f).txAnswers = s.txAnswers := rfl
@[simp] theorem State.assemble_consumers (s : State) (f : Bytes) : (s.assemble f).consumers = s.consumers := rfl
@[simp] theorem State.assemble_reply (s : State) (f : Bytes) : (s.assemble f).reply = s.reply := rfl
@[simp] theorem State.assemble_busyTrace (s : State) (f : Bytes) : (s.assemble f).busyTrace = s.busyTrace := rfl
@[simp] theorem State.assemble_free (s : State) (f : Bytes) : (s.assemble f).free = s.free := rfl

/-! ### `dropTxAnswer` takes one answer of `env.write` and writes no register. -/

@[simp] theorem State.dropTxAnswer_params (s : State) : s.dropTxAnswer.params = s.params := by
  unfold State.dropTxAnswer; split <;> simp_all
@[simp] theorem State.dropTxAnswer_nodeId (s : State) : s.dropTxAnswer.nodeId = s.nodeId := by
  unfold State.dropTxAnswer; split <;> simp_all
@[simp] theorem State.dropTxAnswer_cmd (s : State) : s.dropTxAnswer.cmd = s.cmd := by
  unfold State.dropTxAnswer; split <;> simp_all
@[simp] theorem State.dropTxAnswer_status (s : State) : s.dropTxAnswer.status = s.status := by
  unfold State.dropTxAnswer; split <;> simp_all
@[simp] theorem State.dropTxAnswer_info (s : State) : s.dropTxAnswer.info = s.info := by
  unfold State.dropTxAnswer; split <;> simp_all
@[simp] theorem State.dropTxAnswer_seed (s : State) : s.dropTxAnswer.seed = s.seed := by
  unfold State.dropTxAnswer; split <;> simp_all
@[simp] theorem State.dropTxAnswer_crc (s : State) : s.dropTxAnswer.crc = s.crc := by
  unfold State.dropTxAnswer; split <;> simp_all
@[simp] theorem State.dropTxAnswer_ver (s : State) : s.dropTxAnswer.ver = s.ver := by
  unfold State.dropTxAnswer; split <;> simp_all
@[simp] theorem State.dropTxAnswer_handle (s : State) : s.dropTxAnswer.handle = s.handle := by
  unfold State.dropTxAnswer; split <;> simp_all
@[simp] theorem State.dropTxAnswer_idleTimeout (s : State) : s.dropTxAnswer.idleTimeout = s.idleTimeout := by
  unfold State.dropTxAnswer; split <;> simp_all
@[simp] theorem State.dropTxAnswer_txCount (s : State) : s.dropTxAnswer.txCount = s.txCount := by
  unfold State.dropTxAnswer; split <;> simp_all
@[simp] theorem State.dropTxAnswer_regy (s : State) : s.dropTxAnswer.regy = s.regy := by
  unfold State.dropTxAnswer; split <;> simp_all
@[simp] theorem State.dropTxAnswer_dispatched (s : State) : s.dropTxAnswer.dispatched = s.dispatched := by
  unfold State.dropTxAnswer; split <;> simp_all
@[simp] theorem State.dropTxAnswer_recValid (s : State) : s.dropTxAnswer.recValid = s.recValid := by
  unfold State.dropTxAnswer; split <;> simp_all
@[simp] theorem State.dropTxAnswer_record (s : State) : s.dropTxAnswer.record = s.record := by
  unfold State.dropTxAnswer; split <;> simp_all
@[simp] theorem State.dropTxAnswer_rxOvf (s : State) : s.dropTxAnswer.rxOvf = s.rxOvf := by
  unfold State.dropTxAnswer; split <;> simp_all
@[simp] theorem State.dropTxAnswer_in0 (s : State) : s.dropTxAnswer.in0 = s.in0 := by
  unfold State.dropTxAnswer; split <;> simp_all
@[simp] theorem State.dropTxAnswer_in1 (s : State) : s.dropTxAnswer.in1 = s.in1 := by
  unfold State.dropTxAnswer; split <;> simp_all
@[simp] theorem State.dropTxAnswer_in2 (s : State) : s.dropTxAnswer.in2 = s.in2 := by
  unfold State.dropTxAnswer; split <;> simp_all
@[simp] theorem State.dropTxAnswer_out (s : State) : s.dropTxAnswer.out = s.out := by
  unfold State.dropTxAnswer; split <;> simp_all
@[simp] theorem State.dropTxAnswer_fbuf (s : State) : s.dropTxAnswer.fbuf = s.fbuf := by
  unfold State.dropTxAnswer; split <;> simp_all
@[simp] theorem State.dropTxAnswer_txbuf (s : State) : s.dropTxAnswer.txbuf = s.txbuf := by
  unfold State.dropTxAnswer; split <;> simp_all
@[simp] theorem State.dropTxAnswer_acc (s : State) : s.dropTxAnswer.acc = s.acc := by
  unfold State.dropTxAnswer; split <;> simp_all
@[simp] theorem State.dropTxAnswer_activity (s : State) : s.dropTxAnswer.activity = s.activity := by
  unfold State.dropTxAnswer; split <;> simp_all
@[simp] theorem State.dropTxAnswer_txTrace (s : State) : s.dropTxAnswer.txTrace = s.txTrace := by
  unfold State.dropTxAnswer; split <;> simp_all
@[simp] theorem State.dropTxAnswer_cbTrace (s : State) : s.dropTxAnswer.cbTrace = s.cbTrace := by
  unfold State.dropTxAnswer; split <;> simp_all
@[simp] theorem State.dropTxAnswer_inputs (s : State) : s.dropTxAnswer.inputs = s.inputs := by
  unfold State.dropTxAnswer; split <;> simp_all
@[simp] theorem State.dropTxAnswer_txAnswers (s : State) : s.dropTxAnswer.txAnswers = s.txAnswers.tail := by
  unfold State.dropTxAnswer; split <;> simp_all
@[simp] theorem State.dropTxAnswer_consumers (s : State) : s.dropTxAnswer.consumers = s.consumers := by
  unfold State.dropTxAnswer; split <;> simp_all
@[simp] theorem State.dropTxAnswer_reply (s : State) : s.dropTxAnswer.reply = s.reply := by
  unfold State.dropTxAnswer; split <;> simp_all
@[simp] theorem State.dropTxAnswer_busyTrace (s : State) : s.dropTxAnswer.busyTrace = s.busyTrace := by
  unfold State.dropTxAnswer; split <;> simp_all

/-! ### `dropInvokeAnswer` takes one answer of `env.invoke` and writes no register. -/

@[simp] theorem State.dropInvokeAnswer_params (s : State) : s.dropInvokeAnswer.params = s.params := by
  unfold State.dropInvokeAnswer; split <;> simp_all
@[simp] theorem State.dropInvokeAnswer_nodeId (s : State) : s.dropInvokeAnswer.nodeId = s.nodeId := by
  unfold State.dropInvokeAnswer; split <;> simp_all
@[simp] theorem State.dropInvokeAnswer_cmd (s : State) : s.dropInvokeAnswer.cmd = s.cmd := by
  unfold State.dropInvokeAnswer; split <;> simp_all
@[simp] theorem State.dropInvokeAnswer_status (s : State) : s.dropInvokeAnswer.status = s.status := by
  unfold State.dropInvokeAnswer; split <;> simp_all
@[simp] theorem State.dropInvokeAnswer_info (s : State) : s.dropInvokeAnswer.info = s.info := by
  unfold State.dropInvokeAnswer; split <;> simp_all
@[simp] theorem State.dropInvokeAnswer_seed (s : State) : s.dropInvokeAnswer.seed = s.seed := by
  unfold State.dropInvokeAnswer; split <;> simp_all
@[simp] theorem State.dropInvokeAnswer_crc (s : State) : s.dropInvokeAnswer.crc = s.crc := by
  unfold State.dropInvokeAnswer; split <;> simp_all
@[simp] theorem State.dropInvokeAnswer_ver (s : State) : s.dropInvokeAnswer.ver = s.ver := by
  unfold State.dropInvokeAnswer; split <;> simp_all
@[simp] theorem State.dropInvokeAnswer_handle (s : State) : s.dropInvokeAnswer.handle = s.handle := by
  unfold State.dropInvokeAnswer; split <;> simp_all
@[simp] theorem State.dropInvokeAnswer_idleTimeout (s : State) : s.dropInvokeAnswer.idleTimeout = s.idleTimeout := by
  unfold State.dropInvokeAnswer; split <;> simp_all
@[simp] theorem State.dropInvokeAnswer_txCount (s : State) : s.dropInvokeAnswer.txCount = s.txCount := by
  unfold State.dropInvokeAnswer; split <;> simp_all
@[simp] theorem State.dropInvokeAnswer_regy (s : State) : s.dropInvokeAnswer.regy = s.regy := by
  unfold State.dropInvokeAnswer; split <;> simp_all
@[simp] theorem State.dropInvokeAnswer_dispatched (s : State) : s.dropInvokeAnswer.dispatched = s.dispatched := by
  unfold State.dropInvokeAnswer; split <;> simp_all
@[simp] theorem State.dropInvokeAnswer_recValid (s : State) : s.dropInvokeAnswer.recValid = s.recValid := by
  unfold State.dropInvokeAnswer; split <;> simp_all
@[simp] theorem State.dropInvokeAnswer_record (s : State) : s.dropInvokeAnswer.record = s.record := by
  unfold State.dropInvokeAnswer; split <;> simp_all
@[simp] theorem State.dropInvokeAnswer_rxOvf (s : State) : s.dropInvokeAnswer.rxOvf = s.rxOvf := by
  unfold State.dropInvokeAnswer; split <;> simp_all
@[simp] theorem State.dropInvokeAnswer_in0 (s : State) : s.dropInvokeAnswer.in0 = s.in0 := by
  unfold State.dropInvokeAnswer; split <;> simp_all
@[simp] theorem State.dropInvokeAnswer_in1 (s : State) : s.dropInvokeAnswer.in1 = s.in1 := by
  unfold State.dropInvokeAnswer; split <;> simp_all
@[simp] theorem State.dropInvokeAnswer_in2 (s : State) : s.dropInvokeAnswer.in2 = s.in2 := by
  unfold State.dropInvokeAnswer; split <;> simp_all
@[simp] theorem State.dropInvokeAnswer_out (s : State) : s.dropInvokeAnswer.out = s.out := by
  unfold State.dropInvokeAnswer; split <;> simp_all
@[simp] theorem State.dropInvokeAnswer_fbuf (s : State) : s.dropInvokeAnswer.fbuf = s.fbuf := by
  unfold State.dropInvokeAnswer; split <;> simp_all
@[simp] theorem State.dropInvokeAnswer_txbuf (s : State) : s.dropInvokeAnswer.txbuf = s.txbuf := by
  unfold State.dropInvokeAnswer; split <;> simp_all
@[simp] theorem State.dropInvokeAnswer_acc (s : State) : s.dropInvokeAnswer.acc = s.acc := by
  unfold State.dropInvokeAnswer; split <;> simp_all
@[simp] theorem State.dropInvokeAnswer_activity (s : State) : s.dropInvokeAnswer.activity = s.activity := by
  unfold State.dropInvokeAnswer; split <;> simp_all
@[simp] theorem State.dropInvokeAnswer_txTrace (s : State) : s.dropInvokeAnswer.txTrace = s.txTrace := by
  unfold State.dropInvokeAnswer; split <;> simp_all
@[simp] theorem State.dropInvokeAnswer_cbTrace (s : State) : s.dropInvokeAnswer.cbTrace = s.cbTrace := by
  unfold State.dropInvokeAnswer; split <;> simp_all
@[simp] theorem State.dropInvokeAnswer_inputs (s : State) : s.dropInvokeAnswer.inputs = s.inputs := by
  unfold State.dropInvokeAnswer; split <;> simp_all
@[simp] theorem State.dropInvokeAnswer_txAnswers (s : State) : s.dropInvokeAnswer.txAnswers = s.txAnswers := by
  unfold State.dropInvokeAnswer; split <;> simp_all
@[simp] theorem State.dropInvokeAnswer_consumers (s : State) : s.dropInvokeAnswer.consumers = s.consumers.tail := by
  unfold State.dropInvokeAnswer; split <;> simp_all
@[simp] theorem State.dropInvokeAnswer_reply (s : State) : s.dropInvokeAnswer.reply = s.reply := by
  unfold State.dropInvokeAnswer; split <;> simp_all
@[simp] theorem State.dropInvokeAnswer_busyTrace (s : State) : s.dropInvokeAnswer.busyTrace = s.busyTrace := by
  unfold State.dropInvokeAnswer; split <;> simp_all

/-! ### The wrappers of `finish` -/

@[simp] theorem State.done_eq (s : State) : s.done = s.finish .ok 0 := rfl

@[simp] theorem State.raise_eq (s : State) (st : Status) (info : Nat) : s.raise st info = s.finish st info := rfl

/-- `finish` does not change what the operand buffers hold. -/
@[simp] theorem State.finish_buffer (s : State) (st : Status) (info : Nat) (id : BufId) :
    (s.finish st info).buffer id = s.buffer id := by cases id <;> rfl

/-- `busy` reads the activity alone. -/
theorem State.busy_eq_false_iff (s : State) : s.busy = false ↔ s.activity = .ready := by
  unfold State.busy; split <;> simp_all

end Sys2Proof.Machine
end

