-- ==== Sys2Proof/Laws/Meanings.lean ====
section
/-! SUPPORT. For each shared operation of the meanings, one lemma that says once everything it can do. -/

namespace Sys2Proof.Machine

open Sys2Proof

/-! ### The builders -/

/-- Everything `transmit` does (R117): the count, the bytes accepted, and `OK` or `ERR_TX_SHORT`. -/
theorem State.transmit_eq (s : State) :
    s.transmit =
      { s.dropTxAnswer with
        txCount := BitVec.ofNat 32 (min s.txAnswer s.txbuf.length)
        txTrace := s.txTrace ++ s.txbuf.take (min s.txAnswer s.txbuf.length)
        status := if min s.txAnswer s.txbuf.length = s.txbuf.length then 0 else 2
        info := if min s.txAnswer s.txbuf.length = s.txbuf.length then 0
                else BitVec.ofNat 32 (min s.txAnswer s.txbuf.length) } := by
  by_cases h : min s.txAnswer s.txbuf.length = s.txbuf.length <;> simp [State.transmit, h, State.finish, Status.code]

/-- Everything `build` does (R115): `ERR_LENGTH` and nothing else, or the frame assembled and offered. -/
theorem State.build_cases (s : State) (check : Option Nat) (f : Bytes) :
    (∃ len, check = some len ∧ s.build check f = s.finish .errLength len) ∨
    (check = none ∧ s.build check f = (s.assemble f).transmit) := by
  cases check with
  | some len => exact .inl ⟨len, rfl, rfl⟩
  | none => exact .inr ⟨rfl, rfl⟩

/-- Everything `prepare` does: `ERR_LENGTH` and nothing else, or the frame assembled. -/
theorem State.prepare_cases (s : State) (check : Option Nat) (f : Bytes) :
    (∃ len, check = some len ∧ s.prepare check f = s.finish .errLength len) ∨
    (check = none ∧ s.prepare check f = s.assemble f) := by
  cases check with
  | some len => exact .inl ⟨len, rfl, rfl⟩
  | none => exact .inr ⟨rfl, rfl⟩

/-! ### The parser and the dispatcher -/

/-- Everything `storeParse` does (R160). -/
theorem State.storeParse_cases (s : State) (p : Bytes) :
    (parseBody p = none ∧ s.storeParse p = s.dropRecord) ∨
    (∃ r, parseBody p = some r ∧ s.storeParse p = s.setRecord r) := by
  unfold State.storeParse
  cases h : parseBody p with
  | none => exact .inl ⟨rfl, rfl⟩
  | some r => exact .inr ⟨r, rfl, rfl⟩

/-- Everything the dispatch loop does (R181 to R183): one item per handle, in order, each with the record; refused
command codes; answers taken. -/
theorem State.invokeAll_spec (hs : List Handle) (s : State) :
    ∃ items codes cons fr,
      s.invokeAll hs =
        { s with cbTrace := s.cbTrace ++ items, busyTrace := s.busyTrace ++ codes, consumers := cons, free := fr } ∧
      items.map CbItem.handle = hs ∧ ∀ i ∈ items, i.record = s.record := by
  induction hs generalizing s with
  | nil => exact ⟨[], [], s.consumers, s.free, by simp [State.invokeAll], rfl, by simp⟩
  | cons h rest ih =>
    obtain ⟨items, codes, cons, fr, heq, hmap, hrec⟩ := ih (s.invoke h)
    refine ⟨{ handle := h, record := s.record, outcome := s.invokeAnswer.outcome } :: items,
      s.invokeAnswer.cmdWrites ++ codes, cons, fr, ?_, by simp [hmap], ?_⟩
    · simp only [State.invokeAll, heq]
      simp [State.invoke]
    · intro i hi
      rcases List.mem_cons.mp hi with rfl | hi
      · rfl
      · simpa [State.invoke] using hrec i hi

/-- Everything `dispatchAll` does (R181). -/
theorem State.dispatchAll_spec (s : State) :
    ∃ items codes cons fr,
      s.dispatchAll =
        { s with cbTrace := s.cbTrace ++ items, busyTrace := s.busyTrace ++ codes, consumers := cons, free := fr,
                 dispatched := BitVec.ofNat 32 s.regy.length } ∧
      items.map CbItem.handle = s.regy ∧ ∀ i ∈ items, i.record = s.record := by
  obtain ⟨items, codes, cons, fr, heq, hrest⟩ := s.invokeAll_spec s.regy
  exact ⟨items, codes, cons, fr, by simp [State.dispatchAll, heq], hrest⟩

/-- Everything POLL does with a burst (R186 to R190): it is discarded, the parser answers none, or its record is
dispatched; `STATUS` is `OK` in every case. -/
theorem State.handleBurst_cases (s : State) :
    ((s.rxOvf = true ∨ s.acc.length < 4 ∨ s.acc.getD 0 0 ≠ typePublish) ∧ s.handleBurst = s.done) ∨
    (s.rxOvf = false ∧ 4 ≤ s.acc.length ∧ s.acc.getD 0 0 = typePublish ∧ parseBody (s.acc.drop 4) = none ∧
      s.handleBurst = s.dropRecord.done) ∨
    (s.rxOvf = false ∧ 4 ≤ s.acc.length ∧ s.acc.getD 0 0 = typePublish ∧
      ∃ r, parseBody (s.acc.drop 4) = some r ∧ s.handleBurst = (s.setRecord r).dispatchAll.done) := by
  unfold State.handleBurst
  by_cases h1 : s.rxOvf = true
  · exact .inl ⟨.inl h1, by rw [if_pos h1]⟩
  · by_cases h2 : s.acc.length < 4
    · exact .inl ⟨.inr (.inl h2), by rw [if_neg h1, if_pos h2]⟩
    · by_cases h3 : s.acc.getD 0 0 ≠ typePublish
      · exact .inl ⟨.inr (.inr h3), by rw [if_neg h1, if_neg h2, if_pos h3]⟩
      · rw [if_neg h1, if_neg h2, if_neg h3]
        have h1' : s.rxOvf = false := by simpa using h1
        have h3' : s.acc.getD 0 0 = typePublish := by simpa using h3
        rcases s.storeParse_cases (s.acc.drop 4) with ⟨hp, he⟩ | ⟨r, hp, he⟩
        · exact .inr (.inl ⟨h1', by omega, h3', hp, by simp [he]⟩)
        · exact .inr (.inr ⟨h1', by omega, h3', r, hp, by simp [he]⟩)

/-! ### The link reader -/

@[simp] theorem Reading.accept_forPoll (m : Option Nat) (r : Reading) (b : Byte) :
    (r.accept m b).forPoll = r.forPoll := by unfold Reading.accept; split <;> rfl

@[simp] theorem Reading.acceptAll_forPoll (m : Option Nat) (s : Bytes) (r : Reading) :
    (r.acceptAll m s).forPoll = r.forPoll := by
  induction s generalizing r with
  | nil => rfl
  | cons b rest ih => simp [Reading.acceptAll, ih]

/-- Everything an iteration without bytes can come to (R145). -/
theorem Reading.wait_cases (timeout : Ticks) (r : Reading) (n : Nat) :
    (timeout.toNat < r.idle.toNat + n ∧ r.wait timeout n = .finished r) ∨
    (r.idle.toNat + n ≤ timeout.toNat ∧ ∃ r', r.wait timeout n = .going r' ∧ r'.idle.toNat = r.idle.toNat + n ∧
      r'.forPoll = r.forPoll ∧ r'.acc = r.acc ∧ r'.ovf = r.ovf) := by
  unfold Reading.wait
  by_cases h : timeout.toNat < r.idle.toNat + n
  · exact .inl ⟨h, by simp [h]⟩
  · refine .inr ⟨by omega, { r with idle := BitVec.ofNat Config.timeW (r.idle.toNat + n) }, by simp [h], ?_, rfl, rfl, rfl⟩
    have := timeout.isLt
    simp only [BitVec.toNat_ofNat]
    exact Nat.mod_eq_of_lt (by omega)

/-- Everything one iteration can come to (R142, R144): bytes appended and the clock cleared, a wait, or a failure. -/
theorem Reading.advance_cases (m : Option Nat) (timeout : Ticks) (r : Reading) (e : LineEvent) :
    (∃ b s, r.advance m timeout e = .going { r.acceptAll m (b :: s) with idle := 0 }) ∨
    (∃ n, r.advance m timeout e = r.wait timeout n) ∨
    r.advance m timeout e = .failed := by
  match e with
  | .tick (some b) _ => exact .inl ⟨b, [], rfl⟩
  | .tick none true => exact .inr (.inr rfl)
  | .tick none false => exact .inr (.inl ⟨1, rfl⟩)
  | .poll (.chunk []) n => exact .inr (.inl ⟨n, rfl⟩)
  | .poll (.chunk (b :: s)) _ => exact .inl ⟨b, s, rfl⟩
  | .poll .fail _ => exact .inr (.inr rfl)
  | .poll .nothing n => exact .inr (.inl ⟨n, rfl⟩)

/-- Everything a run of the reader can come to: it goes on, it ends with a burst, or it fails; the reading it stops with
keeps whatever every iteration keeps, and what it leaves of the events is a tail of them. -/
theorem State.drain_cases (P : Reading → Prop) (s : State)
    (hstep : ∀ r e r', P r → r.advance s.params.rxMax s.idleTimeout e = .going r' → P r')
    (hend : ∀ r e r', P r → r.advance s.params.rxMax s.idleTimeout e = .finished r' → P r')
    (inputs : List Input) (r : Reading) (hr : P r) :
    ∃ rest, rest <:+ inputs ∧
      ((∃ r', P r' ∧ s.drain r inputs = { s with inputs := rest, activity := .reading r' }) ∨
       (∃ r', P r' ∧ s.drain r inputs = { s with inputs := rest }.endReading r') ∨
       s.drain r inputs = { s with inputs := rest }.failReading) := by
  induction inputs generalizing r with
  | nil => exact ⟨[], List.suffix_refl _, .inl ⟨r, hr, rfl⟩⟩
  | cons i rest ih =>
    cases i with
    | host a => exact ⟨.host a :: rest, List.suffix_refl _, .inl ⟨r, hr, rfl⟩⟩
    | line e =>
      unfold State.drain
      split
      · rename_i r' he
        obtain ⟨tl, htl, h⟩ := ih r' (hstep r e r' hr he)
        exact ⟨tl, htl.trans (List.suffix_cons _ _), h⟩
      · rename_i r' he
        exact ⟨rest, List.suffix_cons _ _, .inr (.inl ⟨r', hend r e r' hr he, rfl⟩)⟩
      · exact ⟨rest, List.suffix_cons _ _, .inr (.inr rfl)⟩

/-! ### REGISTER -/

/-- Everything REGISTER can answer (R177). -/
theorem execRegister_cases (s : State) :
    (s.handle ∈ s.regy ∧ execRegister s = .next s.done) ∨
    (s.handle ∉ s.regy ∧ s.params.maxConsumers = some s.regy.length ∧
      execRegister s = .next (s.finish .errFull s.regy.length)) ∨
    (s.handle ∉ s.regy ∧ s.params.maxConsumers ≠ some s.regy.length ∧
      execRegister s = .next { s with regy := s.regy ++ [s.handle] }.done) := by
  unfold execRegister State.enroll
  by_cases h1 : s.handle ∈ s.regy
  · exact .inl ⟨h1, by rw [if_pos h1]⟩
  · by_cases h2 : s.params.maxConsumers = some s.regy.length
    · exact .inr (.inl ⟨h1, h2, by rw [if_neg h1, if_pos h2]; rfl⟩)
    · exact .inr (.inr ⟨h1, h2, by rw [if_neg h1, if_neg h2]⟩)

end Sys2Proof.Machine
end

