-- ==== Sys2Proof/Laws/Memory.lean ====
section
/-! SUPPORT. The memory operations: each keeps the canonical form, and a read sees exactly the latest write. -/

namespace Sys2Proof.Machine

open Sys2Proof

/-- The reset memory is in canonical form. -/
theorem Memory.wf_nil : Memory.wf [] := List.Pairwise.nil

/-- A write adds no address but its own. -/
theorem Memory.mem_write_addr {m : Memory} {a : Nat} {b : Byte} {c : Host.Cell} (h : c ∈ m.write a b) :
    c = (a, b) ∨ c ∈ m := by
  induction m with
  | nil => simpa [Memory.write] using h
  | cons d rest ih =>
    unfold Memory.write at h
    split at h
    · simpa using h
    · split at h
      · simp only [List.mem_cons] at h ⊢; tauto
      · simp only [List.mem_cons] at h ⊢
        rcases h with h | h
        · exact .inr (.inl h)
        · exact (ih h).imp_right .inr

/-- A write keeps the canonical form. -/
theorem Memory.wf_write {m : Memory} (h : m.wf) (a : Nat) (b : Byte) : (m.write a b).wf := by
  induction m with
  | nil => exact List.pairwise_singleton _ _
  | cons d rest ih =>
    obtain ⟨hd, hr⟩ := List.pairwise_cons.mp h
    unfold Memory.write
    split
    · rename_i hlt
      refine List.pairwise_cons.mpr ⟨fun c hc => ?_, h⟩
      rcases List.mem_cons.mp hc with rfl | hc
      · exact hlt
      · exact Nat.lt_trans hlt (hd c hc)
    · split
      · rename_i _ heq
        exact List.pairwise_cons.mpr ⟨fun c hc => heq ▸ hd c hc, hr⟩
      · rename_i hnlt hne
        refine List.pairwise_cons.mpr ⟨fun c hc => ?_, ih hr⟩
        rcases Memory.mem_write_addr hc with rfl | hc
        · simp only; omega
        · exact hd c hc

/-- `MemWrite` keeps the canonical form. -/
theorem Memory.wf_writeAll {m : Memory} (h : m.wf) (off : Nat) (bytes : Bytes) : (m.writeAll off bytes).wf := by
  induction bytes generalizing m off with
  | nil => exact h
  | cons b rest ih => exact ih (Memory.wf_write h off b) (off + 1)

/-- Forgetting the bytes beyond a length keeps every address. -/
theorem Memory.forget_addr (m : Memory) (id : BufId) (k n : Nat) :
    (m.forget id k n).map Prod.fst = m.map Prod.fst := by
  simp only [Memory.forget, List.map_map]
  refine List.map_congr_left fun c _ => ?_
  simp only [Function.comp_apply]
  split <;> rfl

/-- Forgetting keeps the canonical form. -/
theorem Memory.wf_forget {m : Memory} (h : m.wf) (id : BufId) (k n : Nat) : (m.forget id k n).wf := by
  have key : ∀ l : Memory, l.wf ↔ (l.map Prod.fst).Pairwise (· < ·) := fun l => List.pairwise_map.symm
  rw [key, Memory.forget_addr, ← key]
  exact h

/-- A read at the address just written gives the byte written. -/
theorem Memory.read?_write_same (m : Memory) (a : Nat) (b : Byte) : (m.write a b).read? a = some b := by
  induction m with
  | nil => simp [Memory.write, Memory.read?]
  | cons d rest ih =>
    unfold Memory.write
    split
    · simp [Memory.read?]
    · split
      · simp [Memory.read?]
      · rename_i _ hne
        simp [Memory.read?, Ne.symm hne, ih]

/-- A write leaves every other address as it was. -/
theorem Memory.read?_write_other (m : Memory) {a a' : Nat} (b : Byte) (hne : a' ≠ a) :
    (m.write a b).read? a' = m.read? a' := by
  induction m with
  | nil => simp [Memory.write, Memory.read?, Ne.symm hne]
  | cons d rest ih =>
    unfold Memory.write
    split
    · simp [Memory.read?, Ne.symm hne]
    · split
      · rename_i _ heq
        subst heq
        simp [Memory.read?, Ne.symm hne]
      · simp only [Memory.read?]
        split
        · rfl
        · exact ih

/-- `MemWrite` leaves the offsets before it as they were. -/
theorem Memory.read?_writeAll_before (m : Memory) {off a : Nat} (bytes : Bytes) (h : a < off) :
    (m.writeAll off bytes).read? a = m.read? a := by
  induction bytes generalizing m off with
  | nil => rfl
  | cons b rest ih =>
    simp only [Memory.writeAll]
    rw [ih _ (by omega), Memory.read?_write_other _ _ (by omega)]

/-- `MemWrite` leaves the offsets after it as they were. -/
theorem Memory.read?_writeAll_after (m : Memory) {off a : Nat} (bytes : Bytes) (h : off + bytes.length ≤ a) :
    (m.writeAll off bytes).read? a = m.read? a := by
  induction bytes generalizing m off with
  | nil => rfl
  | cons b rest ih =>
    simp only [Memory.writeAll]
    simp only [List.length_cons] at h
    rw [ih _ (by omega), Memory.read?_write_other _ _ (by omega)]

/-- `MemWrite` stores its bytes at the offsets they are written to. -/
theorem Memory.read?_writeAll_inside (m : Memory) (off : Nat) (bytes : Bytes) {k : Nat} (h : k < bytes.length) :
    (m.writeAll off bytes).read? (off + k) = some bytes[k] := by
  induction bytes generalizing m off k with
  | nil => simp at h
  | cons b rest ih =>
    simp only [Memory.writeAll]
    cases k with
    | zero =>
      rw [Memory.read?_writeAll_before _ _ (by omega)]
      exact Memory.read?_write_same m off b
    | succ k =>
      have hk : k < rest.length := by simpa using h
      rw [show off + (k + 1) = off + 1 + k by omega, ih (m.write off b) (off + 1) hk]
      rfl

/-- An `IN` buffer reads as many bytes as its length register says (R23). -/
@[simp] theorem InBuf.length_bytes (b : InBuf) (id : BufId) : (b.bytes id).length = b.len := by
  simp [InBuf.bytes]

/-- The byte at an offset below the length. -/
theorem InBuf.getElem_bytes (b : InBuf) (id : BufId) {k : Nat} (h : k < (b.bytes id).length) :
    (b.bytes id)[k] = b.byteAt id k := by
  simp [InBuf.bytes]

/-- A buffer all of whose bytes up to its length are the given ones reads as them: what the host wrote, the command
sees. -/
theorem InBuf.bytes_writeAll (b : InBuf) (id : BufId) (bytes : Bytes) :
    InBuf.bytes { b with len := bytes.length, mem := b.mem.writeAll 0 bytes } id = bytes := by
  refine List.ext_getElem (by simp) fun k h1 h2 => ?_
  rw [InBuf.getElem_bytes]
  have := Memory.read?_writeAll_inside b.mem 0 bytes h2
  rw [Nat.zero_add] at this
  simp [InBuf.byteAt, this]

end Sys2Proof.Machine
end

