-- ==== Sys2Proof/Laws/PerInstr.lean ====
section
/-! SUPPORT. What holds of every instruction as syntax, one lemma per constructor. -/

namespace Sys2Proof.Laws.EncodedLength

open Sys2Proof Sys2Proof.Machine

/-- A well-formed instruction's encoding is as long as its row says: one byte for a command (R74), the total length of the
layout for a frame (R65 to R69, R124). -/
def Statement (i : Instr) : Prop := i.wellFormed = true → (encode i).length = encodedLength i

theorem checksum : Statement .checksum := fun _ => rfl
theorem stuff : Statement .stuff := fun _ => rfl
theorem buildSubscribe : Statement .buildSubscribe := fun _ => rfl
theorem buildPublishRaw : Statement .buildPublishRaw := fun _ => rfl
theorem buildPublishLog : Statement .buildPublishLog := fun _ => rfl
theorem buildPublishPrint : Statement .buildPublishPrint := fun _ => rfl
theorem readBurst : Statement .readBurst := fun _ => rfl
theorem parsePublish : Statement .parsePublish := fun _ => rfl
theorem register : Statement .register := fun _ => rfl
theorem dispatch : Statement .dispatch := fun _ => rfl
theorem poll : Statement .poll := fun _ => rfl

theorem frameSubscribe (topic : Bytes) : Statement (.frameSubscribe topic) := fun _ => by
  simp [encode, encodedLength]

theorem framePublishRaw (node : NodeId) (topic : Bytes) (version : Byte) (data : Bytes) :
    Statement (.framePublishRaw node topic version data) := fun _ => by
  simp [encode, encodedLength]

theorem framePublishLog (node : NodeId) (topic filename text : Bytes) :
    Statement (.framePublishLog node topic filename text) := fun _ => by
  simp [encode, encodedLength]

theorem framePublishPrint (node : NodeId) (topic text : Bytes) :
    Statement (.framePublishPrint node topic text) := fun _ => by
  simp [encode, encodedLength]

theorem framePublishInbound (reserved : Byte) (checksum : Half) (node : NodeId) (type version : Byte)
    (topic data : Bytes) : Statement (.framePublishInbound reserved checksum node type version topic data) := fun _ => by
  simp [encode, encodedLength]

end Sys2Proof.Laws.EncodedLength
end

