-- ==== Sys2Proof/Laws/Step.lean ====
section
/-! SUPPORT. What one step can do, once for all. -/

namespace Sys2Proof.Machine

open Sys2Proof

/-- Everything a write of `CMD` can lead to (R13, R76). -/
theorem State.start_cases (s : State) (code : Byte) :
    (s.busy = true ∧ s.start code = .over (.next (s.refuseBusy code))) ∨
    (s.busy = false ∧ ∃ i, decodeCommand code = .ok i ∧
      s.start code = .command i { s with cmd := code, reply := .done }) ∨
    (s.busy = false ∧ ∃ err, decodeCommand code = .error err ∧
      s.start code = .over (.next ({ s with cmd := code, reply := .done }.finish .errCmd code.toNat))) := by
  unfold State.start
  by_cases hb : s.busy = true
  · exact .inl ⟨hb, by rw [if_pos hb]⟩
  · have hb' : s.busy = false := by simpa using hb
    rw [if_neg hb]
    simp only [decode]
    cases hd : decodeCommand code with
    | ok i => exact .inr (.inl ⟨hb', i, rfl, rfl⟩)
    | error e => exact .inr (.inr ⟨hb', e, rfl, rfl⟩)

/-- Everything one step can be: a free event of the line or a wait, a listed event of the line, or an access of the host,
which is a command only when `CMD` is written. -/
theorem step_cases (s : State) :
    (s.inputs = [] ∧ step s = .next s.quiet) ∨
    (∃ e rest, s.inputs = .line e :: rest ∧ step s = .next ({ s with inputs := rest }.lineEvent e)) ∨
    (∃ v rest, s.inputs = .host (.write .cmd v) :: rest ∧ s.busy = true ∧
      step s = .next ({ s with inputs := rest }.refuseBusy (BitVec.ofNat 8 v))) ∨
    (∃ v rest i, s.inputs = .host (.write .cmd v) :: rest ∧ s.busy = false ∧ decodeCommand (BitVec.ofNat 8 v) = .ok i ∧
      step s = exec i { s with inputs := rest, cmd := BitVec.ofNat 8 v, reply := .done }) ∨
    (∃ v rest err, s.inputs = .host (.write .cmd v) :: rest ∧ s.busy = false ∧
      decodeCommand (BitVec.ofNat 8 v) = .error err ∧
      step s = .next ({ s with inputs := rest, cmd := BitVec.ofNat 8 v, reply := .done }.finish .errCmd
        (BitVec.ofNat 8 v).toNat)) ∨
    (∃ r v rest, s.inputs = .host (.write r v) :: rest ∧ r ≠ .cmd ∧
      step s = .next ({ s with inputs := rest }.hostWrite r v)) ∨
    (∃ r rest, s.inputs = .host (.read r) :: rest ∧ step s = .next ({ s with inputs := rest }.hostRead r)) ∨
    (∃ id off b rest, s.inputs = .host (.writeBuf id off b) :: rest ∧
      step s = { s with inputs := rest }.hostWriteBuf id off b) ∨
    (∃ id off n rest, s.inputs = .host (.readBuf id off n) :: rest ∧
      step s = .next ({ s with inputs := rest }.hostReadBuf id off n)) ∨
    (∃ k rest, s.inputs = .host (.readEntry k) :: rest ∧ step s = .next ({ s with inputs := rest }.hostReadEntry k)) ∨
    (∃ node rest, s.inputs = .host (.reset node) :: rest ∧ step s = .next ({ s with inputs := rest }.resetBlock node)) := by
  have hstep : step s = match s.fetch with
    | .command i s' => exec i s'
    | .over o => o := rfl
  rw [hstep]
  unfold State.fetch
  cases hi : s.inputs with
  | nil => exact .inl ⟨rfl, rfl⟩
  | cons i rest =>
    refine .inr ?_
    cases i with
    | line e => exact .inl ⟨e, rest, rfl, rfl⟩
    | host a =>
      refine .inr ?_
      cases a with
      | write r v =>
        by_cases hr : r = .cmd
        · subst hr
          have hb : ({ s with inputs := rest } : State).busy = s.busy := rfl
          rcases State.start_cases { s with inputs := rest } (BitVec.ofNat 8 v) with
            ⟨h1, h2⟩ | ⟨h1, i, hd, h2⟩ | ⟨h1, e, hd, h2⟩
          · exact .inl ⟨v, rest, rfl, hb ▸ h1, by simp only [State.access, h2]⟩
          · exact .inr (.inl ⟨v, rest, i, rfl, hb ▸ h1, hd, by simp only [State.access, h2]⟩)
          · exact .inr (.inr (.inl ⟨v, rest, e, rfl, hb ▸ h1, hd, by simp only [State.access, h2]⟩))
        · refine .inr (.inr (.inr (.inl ⟨r, v, rest, rfl, hr, ?_⟩)))
          cases r <;> first | rfl | exact absurd rfl hr
      | read r => exact .inr (.inr (.inr (.inr (.inl ⟨r, rest, rfl, rfl⟩))))
      | writeBuf id off b => exact .inr (.inr (.inr (.inr (.inr (.inl ⟨id, off, b, rest, rfl, rfl⟩)))))
      | readBuf id off n => exact .inr (.inr (.inr (.inr (.inr (.inr (.inl ⟨id, off, n, rest, rfl, rfl⟩))))))
      | readEntry k => exact .inr (.inr (.inr (.inr (.inr (.inr (.inr (.inl ⟨k, rest, rfl, rfl⟩)))))))
      | reset n => exact .inr (.inr (.inr (.inr (.inr (.inr (.inr (.inr ⟨n, rest, rfl, rfl⟩)))))))

/-- No instruction faults or is refused: `exec` always answers a next state (R206, R209). -/
theorem exec_next (i : Instr) (s : State) : ∃ t, exec i s = .next t := by
  cases i <;> exact ⟨_, rfl⟩

end Sys2Proof.Machine
end

