-- ==== Sys2Proof/Tests/Slice0.lean ====
section
/-! SUPPORT. Tests. Expected values come from the spec: the vectors of its file 95 by their names (V, S, B, K, Q, T, G, E,
P), and the encodings of its file 30 written out by hand. After them, for every statement with hypotheses, a witness. -/

namespace Sys2Proof.Tests

-- One test after the other: elaborated side by side they would wait on the kernel in some sixty threads.
set_option Elab.async false

open Sys2Proof Sys2Proof.Machine Sys2Proof.Safety

/-! ### Helpers -/

/-- A block with room for 400 bytes each way, 3 consumers and 8-bit handles, after reset; `env.write` accepts all. -/
def base : State :=
  { State.construct { frameMax := some 400, rxMax := some 400, maxConsumers := some 3, cbW := 8 } nid 0 with
    txAnswers := [1000] }

/-- An `IN` buffer whose host has written these bytes and their number. -/
def holding (b : Bytes) : InBuf := { len := b.length, mem := Memory.writeAll [] 0 b, era := 0 }

/-- An `IN` buffer with a length register set and nothing written. -/
def sized (n : Nat) : InBuf := { len := n, mem := [], era := 0 }

/-- The base state with these operands. -/
def operands (b0 b1 b2 : Bytes) : State := { base with in0 := holding b0, in1 := holding b1, in2 := holding b2 }

/-- What is read of the next state, if there is one. -/
def seen {α : Type} (o : Host.Outcome State Fault Refusal) (f : State → α) : Option α :=
  match o with
  | .next t => some (f t)
  | .fault _ => none
  | .refused _ => none

/-- The fault of an outcome. -/
def faultOf (o : Host.Outcome State Fault Refusal) : Option Fault :=
  match o with
  | .next _ => none
  | .fault r => some r
  | .refused _ => none

/-- The instruction a decoder answers. -/
def got (r : Except DecodeError Instr) : Option Instr :=
  match r with
  | .ok i => some i
  | .error _ => none

/-- The reason a decoder gives. -/
def why (r : Except DecodeError Instr) : Option DecodeError :=
  match r with
  | .ok _ => none
  | .error e => some e

/-- The frame `E` of section 7 of the vectors. -/
def frameE : Bytes := [0x02, 0x00, 0xDB, 0x1E] ++ bodyQ1

/-- Back-to-back bytes and then silence. -/
def burst (b : Bytes) (timeout : Nat) : List Input := arrivals (b.map (fun x => (0, x))) ++ silence (timeout + 1)

/-! ### WellFormed: what each check refuses (R72) -/

theorem test_wf_subscribe_topic : (Instr.frameSubscribe (List.replicate 65536 0x41)).wellFormed = false := by
  simp only [Instr.wellFormed, maxField, List.length_replicate]; decide
theorem test_wf_raw_topic : (Instr.framePublishRaw 0 (List.replicate 65536 0x41) 0 []).wellFormed = false := by
  simp only [Instr.wellFormed, maxField, List.length_replicate]; decide
theorem test_wf_log_topic : (Instr.framePublishLog 0 (List.replicate 65536 0x41) [] []).wellFormed = false := by
  simp only [Instr.wellFormed, maxField, List.length_replicate]; decide
theorem test_wf_log_filename : (Instr.framePublishLog 0 [] (List.replicate 65536 0x41) []).wellFormed = false := by
  simp only [Instr.wellFormed, maxField, List.length_replicate]; decide
theorem test_wf_log_text : (Instr.framePublishLog 0 [] [] (List.replicate 65535 0x41)).wellFormed = false := by
  simp only [Instr.wellFormed, maxField, List.length_replicate]; decide
theorem test_wf_print_topic : (Instr.framePublishPrint 0 (List.replicate 65536 0x41) []).wellFormed = false := by
  simp only [Instr.wellFormed, maxField, List.length_replicate]; decide
theorem test_wf_print_text : (Instr.framePublishPrint 0 [] (List.replicate 65535 0x41)).wellFormed = false := by
  simp only [Instr.wellFormed, maxField, List.length_replicate]; decide
theorem test_wf_inbound_topic :
    (Instr.framePublishInbound 0 0 0 0 0 (List.replicate 65536 0x41) []).wellFormed = false := by
  simp only [Instr.wellFormed, maxField, List.length_replicate]; decide
theorem test_wf_longest :
    (Instr.framePublishLog 0 (List.replicate 65535 0x41) (List.replicate 65535 0x41)
      (List.replicate 65534 0x41)).wellFormed = true := by simp only [Instr.wellFormed, maxField, List.length_replicate]; decide

/-! ### Decoding: words written out from the encodings (R75, R65 to R69) -/

theorem test_decode_checksum : got (decode .command [0x01]) = some .checksum := by decide
theorem test_decode_stuff : got (decode .command [0x02]) = some .stuff := by decide
theorem test_decode_buildSubscribe : got (decode .command [0x10]) = some .buildSubscribe := by decide
theorem test_decode_buildPublishRaw : got (decode .command [0x11]) = some .buildPublishRaw := by decide
theorem test_decode_buildPublishLog : got (decode .command [0x12]) = some .buildPublishLog := by decide
theorem test_decode_buildPublishPrint : got (decode .command [0x13]) = some .buildPublishPrint := by decide
theorem test_decode_readBurst : got (decode .command [0x20]) = some .readBurst := by decide
theorem test_decode_parsePublish : got (decode .command [0x21]) = some .parsePublish := by decide
theorem test_decode_register : got (decode .command [0x30]) = some .register := by decide
theorem test_decode_dispatch : got (decode .command [0x31]) = some .dispatch := by decide
theorem test_decode_poll : got (decode .command [0x32]) = some .poll := by decide

/-- Vector B3: "t283", whose checksum has a zero low byte. -/
theorem test_decode_frameSubscribe :
    got (decode .subscribe [0x03, 0x00, 0x00, 0x04, 0x04, 0x00, 0x74, 0x32, 0x38, 0x33]) =
      some (.frameSubscribe [0x74, 0x32, 0x38, 0x33]) := by decide +kernel

/-- Vector B4. -/
theorem test_decode_framePublishRaw :
    got (decode .publishRaw [0x02, 0x00, 0x91, 0x09, 0x1A, 0xCC, 0xCA, 0xF0, 0xEE, 0xEE, 0xFF, 0xC0, 0x01, 0x01, 0x0A,
      0x00, 0x64, 0x65, 0x76, 0x69, 0x63, 0x65, 0x2F, 0x6C, 0x65, 0x64, 0x01, 0x7B, 0x22, 0x6C, 0x65, 0x64, 0x22, 0x3A,
      0x22, 0x6F, 0x6E, 0x22, 0x7D]) = some (.framePublishRaw nid deviceLed 0x01 ledOn) := by decide +kernel

/-- Vector B6. -/
theorem test_decode_framePublishLog :
    got (decode .publishLog [0x02, 0x00, 0x90, 0xB4, 0x1A, 0xCC, 0xCA, 0xF0, 0xEE, 0xEE, 0xFF, 0xC0, 0x01, 0x01, 0x0F,
      0x00, 0x73, 0x70, 0x6F, 0x74, 0x74, 0x65, 0x72, 0x2F, 0x66, 0x70, 0x72, 0x69, 0x6E, 0x74, 0x66, 0x00, 0x00, 0x00,
      0x00, 0x00, 0x00, 0x00, 0x00, 0x05, 0x00, 0x03, 0x00, 0x61, 0x2E, 0x6C, 0x6F, 0x67, 0x68, 0x69, 0x0A]) =
      some (.framePublishLog nid topicLog [0x61, 0x2E, 0x6C, 0x6F, 0x67] [0x68, 0x69]) := by decide +kernel

/-- Vector B7. -/
theorem test_decode_framePublishPrint :
    got (decode .publishPrint [0x02, 0x00, 0xAC, 0x45, 0x1A, 0xCC, 0xCA, 0xF0, 0xEE, 0xEE, 0xFF, 0xC0, 0x01, 0x01, 0x0E,
      0x00, 0x73, 0x70, 0x6F, 0x74, 0x74, 0x65, 0x72, 0x2F, 0x70, 0x72, 0x69, 0x6E, 0x74, 0x66, 0x00, 0x00, 0x00, 0x00,
      0x00, 0x00, 0x00, 0x00, 0x00, 0x00, 0x03, 0x00, 0x68, 0x69, 0x0A]) =
      some (.framePublishPrint nid topicPrint [0x68, 0x69]) := by decide +kernel

/-- The frame of vector T3: `E` with its reserved byte replaced by FF. -/
theorem test_decode_framePublishInbound :
    got (decode .publishInbound ([0x02, 0xFF, 0xDB, 0x1E] ++ bodyQ1)) =
      some (.framePublishInbound 0xFF 0x1EDB nid 0x01 0x01 deviceLed ledOn) := by decide +kernel

/-- Refusals by name: an unassigned code (E7), a wrong checksum (B2 with one bit changed), a wrong type (T11). -/
theorem test_decode_refusals :
    why (decode .command [0x14]) = some (.unassigned 0x14) ∧ why (decode .command []) = some .notOneByte ∧
    why (decode .subscribe [0x03, 0x00, 0x7C, 0x0C, 0x00, 0x00]) = some .badChecksum ∧
    why (decode .publishInbound (0x03 :: frameE.drop 1)) = some .badType ∧
    why (decode .publishInbound (frameE.take 20)) = some .overrun := by decide +kernel

/-- A table word is read as the code written to `CMD`. -/
theorem test_table_words :
    decodeTableWord 8 0x31 = some .dispatch ∧ decodeTableWord 8 0x03 = none ∧ decodeTableWord 16 0x31 = none := by decide

/-- The next step after `withFetchWord` runs that command: CHECKSUM of nothing from seed 0 (V1). -/
theorem test_fetch_word :
    seen (step (base.withFetchWord 8 0x01)) (fun t => (t.cmd, t.crc, t.status, t.inputs.length)) =
      some (0x01, 0x0000, 0x00, 0) := by decide +kernel

/-! ### One step of each instruction -/

/-- V10. -/
theorem test_checksum : seen (exec .checksum (operands [0x41, 0x42] [] [])) State.crc = some 0x3EA8 := by decide +kernel

/-- V14. -/
theorem test_checksum_seed :
    seen (exec .checksum { operands [0x31, 0x32, 0x33, 0x34, 0x35, 0x36, 0x37, 0x38, 0x39] [] [] with seed := 0xFFFF })
      (fun t => (t.crc, t.seed)) = some (0x6F91, 0xFFFF) := by decide +kernel

/-- S9. -/
theorem test_stuff :
    seen (exec .stuff (operands [0x11, 0x00, 0x00, 0x00] [] [])) State.out =
      some [0x02, 0x11, 0x01, 0x01, 0x01] := by decide +kernel

/-- S22: the run count restarts after a delimiter. -/
theorem test_stuff_forced :
    stuff (List.replicate 253 0x01 ++ [0x00] ++ List.replicate 254 0x02) =
      [0xFE] ++ List.replicate 253 0x01 ++ [0xFF] ++ List.replicate 254 0x02 ++ [0x01] := by decide +kernel

/-- B3. -/
theorem test_buildSubscribe :
    seen (exec .buildSubscribe (operands [0x74, 0x32, 0x38, 0x33] [] [])) (fun t => (t.fbuf, t.txbuf, t.txCount)) =
      some ([0x03, 0x00, 0x00, 0x04, 0x04, 0x00, 0x74, 0x32, 0x38, 0x33],
        [0x02, 0x03, 0x01, 0x03, 0x04, 0x04, 0x05, 0x74, 0x32, 0x38, 0x33, 0x00], 12) := by decide +kernel

/-- E2: a short write of 7 bytes. -/
theorem test_buildSubscribe_short :
    seen (exec .buildSubscribe { operands deviceLed [] [] with txAnswers := [7, 99] })
      (fun t => (t.status, t.info, t.txCount, t.txTrace, t.txAnswers)) =
      some (0x02, 7, 7, [0x02, 0x03, 0x04, 0xB2, 0x63, 0x0A, 0x0B], [99]) := by decide +kernel

/-- B4. -/
theorem test_buildPublishRaw :
    seen (exec .buildPublishRaw { operands deviceLed ledOn [] with ver := 0x01 }) State.txbuf =
      some [0x02, 0x02, 0x0E, 0x91, 0x09, 0x1A, 0xCC, 0xCA, 0xF0, 0xEE, 0xEE, 0xFF, 0xC0, 0x01, 0x01, 0x0A, 0x18, 0x64,
        0x65, 0x76, 0x69, 0x63, 0x65, 0x2F, 0x6C, 0x65, 0x64, 0x01, 0x7B, 0x22, 0x6C, 0x65, 0x64, 0x22, 0x3A, 0x22, 0x6F,
        0x6E, 0x22, 0x7D, 0x00] := by decide +kernel

/-- B5. -/
theorem test_buildPublishRaw_empty :
    seen (exec .buildPublishRaw { operands [0x74] [] [] with nodeId := 0 }) State.fbuf =
      some [0x02, 0x00, 0xAF, 0x7D, 0x00, 0x00, 0x00, 0x00, 0x00, 0x00, 0x00, 0x00, 0x01, 0x01, 0x01, 0x00, 0x74, 0x00] := by
  decide +kernel

/-- B6. -/
theorem test_buildPublishLog :
    seen (exec .buildPublishLog (operands topicLog [0x61, 0x2E, 0x6C, 0x6F, 0x67] [0x68, 0x69])) State.fbuf =
      some [0x02, 0x00, 0x90, 0xB4, 0x1A, 0xCC, 0xCA, 0xF0, 0xEE, 0xEE, 0xFF, 0xC0, 0x01, 0x01, 0x0F, 0x00, 0x73, 0x70,
        0x6F, 0x74, 0x74, 0x65, 0x72, 0x2F, 0x66, 0x70, 0x72, 0x69, 0x6E, 0x74, 0x66, 0x00, 0x00, 0x00, 0x00, 0x00, 0x00,
        0x00, 0x00, 0x05, 0x00, 0x03, 0x00, 0x61, 0x2E, 0x6C, 0x6F, 0x67, 0x68, 0x69, 0x0A] := by decide +kernel

/-- B7; `IN1` is not read. -/
theorem test_buildPublishPrint :
    seen (exec .buildPublishPrint (operands topicPrint [0x99] [0x68, 0x69])) State.fbuf =
      some [0x02, 0x00, 0xAC, 0x45, 0x1A, 0xCC, 0xCA, 0xF0, 0xEE, 0xEE, 0xFF, 0xC0, 0x01, 0x01, 0x0E, 0x00, 0x73, 0x70,
        0x6F, 0x74, 0x74, 0x65, 0x72, 0x2F, 0x70, 0x72, 0x69, 0x6E, 0x74, 0x66, 0x00, 0x00, 0x00, 0x00, 0x00, 0x00, 0x00,
        0x00, 0x00, 0x00, 0x03, 0x00, 0x68, 0x69, 0x0A] := by decide +kernel

/-- E4: a text one byte too long, reported with its own length. -/
theorem test_buildPublishPrint_tooLong :
    seen (exec .buildPublishPrint { base with params := { base.params with frameMax := none }, in2 := sized 65535 })
      (fun t => (t.status, t.info, t.fbuf, t.txAnswers)) = some (0x03, 65535, [], [1000]) := by decide +kernel

/-- K5: a gap of `IDLE_TIMEOUT` ticks does not end the burst, one more does. -/
theorem test_readBurst_gap :
    seen (exec .readBurst { base with idleTimeout := 2, inputs := arrivals [(0, 0xAA), (2, 0xBB), (3, 0xCC)] })
      (fun t => (t.acc, t.status, t.busy, t.inputs.length)) = some ([0xAA, 0xBB], 0x00, false, 1) := by decide +kernel

/-- K7: an overflow drops bytes and still restarts the idle clock. -/
theorem test_readBurst_overflow :
    seen (exec .readBurst { base with
      params := { base.params with rxMax := some 2 }, idleTimeout := 1, inputs := burst [0x01, 0x02, 0x03, 0x04] 1 })
      (fun t => (t.acc, t.rxOvf, t.status, t.busy)) = some ([0x01, 0x02], true, 0x00, false) := by decide +kernel

/-- Q1. -/
theorem test_parsePublish :
    seen (exec .parsePublish (operands bodyQ1 [] [])) (fun t => (t.recValid, t.record)) = some (true, recordQ1) := by
  decide +kernel

/-- Q7: the end of the topic is not taken modulo 2^16. -/
theorem test_parsePublish_noWrap :
    seen (exec .parsePublish (operands (List.replicate 8 0x00 ++ [0x01, 0x01, 0xFF, 0xFF] ++ List.replicate 20 0x00) [] []))
      (fun t => (t.recValid, t.status)) = some (false, 0x00) := by decide +kernel

/-- G4. -/
theorem test_register_full :
    seen (exec .register { base with regy := [7, 9, 4], handle := 5 }) (fun t => (t.regy, t.status, t.info)) =
      some ([7, 9, 4], 0x04, 3) := by decide +kernel

/-- G5: the duplicate check comes first. -/
theorem test_register_duplicate :
    seen (exec .register { base with regy := [7, 9, 4], handle := 9 }) (fun t => (t.regy, t.status, t.info)) =
      some ([7, 9, 4], 0x00, 0) := by decide +kernel

/-- The worked example of R181, with a command refused inside a consumer (E6). -/
theorem test_dispatch :
    seen (exec .dispatch { base with
      regy := [7, 9], recValid := true, record := recordQ1, consumers := [⟨.failed, [0x30]⟩, ⟨.ok, []⟩] })
      (fun t => (t.cbTrace, t.dispatched, t.status, t.regy, t.busyTrace)) =
      some ([⟨7, recordQ1, .failed⟩, ⟨9, recordQ1, .ok⟩], 2, 0x00, [7, 9], [0x30]) := by decide +kernel

/-- G7. -/
theorem test_dispatch_noRecord :
    seen (exec .dispatch { base with regy := [7], dispatched := 5 }) (fun t => (t.status, t.dispatched, t.cbTrace)) =
      some (0x07, 0, []) := by decide +kernel

/-- T1: the end-to-end scenario. -/
theorem test_poll :
    seen (exec .poll { base with
      regy := [7], idleTimeout := 3, consumers := [⟨.ok, []⟩], inputs := burst frameE 3 })
      (fun t => (t.cbTrace, t.dispatched, t.status, t.acc)) = some ([⟨7, recordQ1, .ok⟩], 1, 0x00, frameE) := by
  decide +kernel

/-- T14: a truncated burst is discarded. -/
theorem test_poll_truncated :
    seen (exec .poll { base with
      params := { base.params with rxMax := some 38 }, regy := [7], idleTimeout := 3,
      inputs := burst (frameE ++ [0x00, 0x00]) 3 })
      (fun t => (t.cbTrace, t.dispatched, t.status, t.recValid, t.rxOvf)) = some ([], 0, 0x00, false, true) := by
  decide +kernel

/-- B1. -/
theorem test_frameSubscribe :
    seen (exec (.frameSubscribe deviceLed) base) (fun t => (t.fbuf, t.txbuf)) =
      some ([0x03, 0x00, 0xB2, 0x63, 0x0A, 0x00, 0x64, 0x65, 0x76, 0x69, 0x63, 0x65, 0x2F, 0x6C, 0x65, 0x64],
        [0x02, 0x03, 0x04, 0xB2, 0x63, 0x0A, 0x0B, 0x64, 0x65, 0x76, 0x69, 0x63, 0x65, 0x2F, 0x6C, 0x65, 0x64, 0x00]) := by
  decide +kernel

/-- B9: a frame long enough for a forced block. -/
theorem test_framePublishRaw :
    seen (exec (.framePublishRaw 1 [0x78] 0x02 (List.replicate 300 0x55)) base)
      (fun t => (t.fbuf.length, slice t.fbuf 2 2, t.txbuf.length, t.txbuf.getD 16 0, t.txbuf.getD 271 0)) =
      some (318, [0x17, 0x5C], 321, 0xFF, 0x31) := by decide +kernel

/-- B6: the wire image. -/
theorem test_framePublishLog :
    seen (exec (.framePublishLog nid topicLog [0x61, 0x2E, 0x6C, 0x6F, 0x67] [0x68, 0x69]) base) State.txbuf =
      some [0x02, 0x02, 0x0E, 0x90, 0xB4, 0x1A, 0xCC, 0xCA, 0xF0, 0xEE, 0xEE, 0xFF, 0xC0, 0x01, 0x01, 0x0F, 0x10, 0x73,
        0x70, 0x6F, 0x74, 0x74, 0x65, 0x72, 0x2F, 0x66, 0x70, 0x72, 0x69, 0x6E, 0x74, 0x66, 0x01, 0x01, 0x01, 0x01, 0x01,
        0x01, 0x01, 0x02, 0x05, 0x02, 0x03, 0x09, 0x61, 0x2E, 0x6C, 0x6F, 0x67, 0x68, 0x69, 0x0A, 0x00] := by
  decide +kernel

/-- B8. -/
theorem test_framePublishPrint :
    seen (exec (.framePublishPrint 1 [0x70] []) base) State.txbuf =
      some [0x02, 0x02, 0x04, 0xCF, 0x2F, 0x01, 0x01, 0x01, 0x01, 0x01, 0x01, 0x01, 0x04, 0x01, 0x01, 0x01, 0x02, 0x70,
        0x01, 0x01, 0x01, 0x01, 0x01, 0x01, 0x01, 0x01, 0x01, 0x02, 0x01, 0x02, 0x0A, 0x00] := by decide +kernel

/-- T2: `E` with a wrong checksum is accepted. -/
theorem test_framePublishInbound :
    seen (exec (.framePublishInbound 0x00 0x0000 nid 0x01 0x01 deviceLed ledOn)
      { base with regy := [7], consumers := [⟨.ok, []⟩] }) (fun t => (t.recValid, t.record, t.dispatched, t.status)) =
      some (true, recordQ1, 1, 0x00) := by decide +kernel

/-! ### Steps that are no instruction -/

/-- E7. -/
theorem test_unassigned_code :
    seen (step { base with inputs := [.host (.write .cmd 0x14)] }) (fun t => (t.status, t.info)) = some (0x06, 0x14) := by
  decide +kernel

/-- R18: the one value `IDLE_TIMEOUT` does not take. -/
theorem test_idleTimeout_max :
    seen (step { base with idleTimeout := 5, inputs := [.host (.write .idleTimeout 0xFFFFFFFF)] })
      (fun t => (t.idleTimeout, t.reply)) = some (5, .ignored) := by decide +kernel

/-- R45: a read that ends at the length, one that goes a byte beyond, and a write that goes a byte beyond the capacity. -/
theorem test_buf_edges :
    seen (step { operands [] [0xAA, 0xBB] [] with inputs := [.host (.readBuf .in1 1 1)] }) State.reply =
      some (.bytes [0xBB]) ∧
    seen (step { operands [] [0xAA, 0xBB] [] with inputs := [.host (.readBuf .in1 1 2)] }) State.reply = some .noValue ∧
    faultOf (step { base with inputs := [.host (.writeBuf .in2 399 [0x01, 0x02])] }) =
      some (.writeOutside .in2 399 2) := by decide +kernel

/-- R41's row where it holds every topic of the largest input, at the largest `FRAME_MAX` for an `RX_MAX`, the largest
`RX_MAX` for a `FRAME_MAX` and with unbounded ones; elsewhere, one more of each, the longest topic of that input. -/
theorem test_topicCapacity :
    [(some 112, some 100), (some 100, some 116), (none, none), (some 65535, none), (none, some 65535),
      (some 113, some 100), (some 100, some 117), (some 256, some 1024), (some 256, none)].map
        (fun x => Params.topicCapacity ⟨x.1, x.2, none, 8⟩) =
      [100, 100, 65535, 65535, 65535, 101, 101, 1008, 65535] := by decide

/-- R230: a reset ends a READ_BURST that would wait for ever. -/
theorem test_reset_ends_wait :
    seen (step { base with activity := .reading ⟨false, 0, [0x01], false⟩, inputs := [.host (.reset 5)] })
      (fun t => (t.busy, t.nodeId, t.acc)) = some (false, 5, []) := by decide +kernel

/-! ### Witnesses: for every statement with hypotheses, values that meet them, at the edges of its clauses -/

/-- A base state with another `FRAME_MAX` and these operand lengths. -/
def lengths (cap : Option Nat) (t f x : Nat) : State :=
  { base with params := { base.params with frameMax := cap }, in0 := sized t, in1 := sized f, in2 := sized x }

/-- A state in which READ_BURST runs. -/
def busyState : State := { base with activity := .reading ⟨false, 0, [0x01], false⟩ }

theorem witness_StuffCommandResult : (operands [0x41] [] []).in0.len ≤ 1 := by decide

theorem witness_StuffedOutputBounds :
    ∀ run : Bytes, run <:+: List.replicate 253 (0x01 : Byte) → 0x00 ∉ run → run.length ≤ 253 :=
  fun _ h _ => h.length_le.trans (by rw [List.length_replicate])

theorem witness_StuffCornerCases :
    (0x01 : Byte) ≠ 0x00 ∧ ∀ n ∈ [253, 254, 255, 300, 508],
      0x00 ∉ List.replicate n (0x01 : Byte) ∧ (List.replicate n (0x01 : Byte)).length = n :=
  ⟨by decide, fun n _ => ⟨fun h => absurd (List.eq_of_mem_replicate h) (by decide), List.length_replicate⟩⟩

/-- A topic of 10 bytes that fills `FRAME_MAX` exactly. -/
theorem witness_BuildSubscribeResult :
    (operands deviceLed [] []).in0Bytes = deviceLed ∧ deviceLed.length ≤ 65535 ∧
      fits (lengths (some 16) 10 0 0).params.frameMax (6 + deviceLed.length) = true ∧
      fits (lengths (some 15) 10 0 0).params.frameMax (6 + (lengths (some 15) 10 0 0).in0.len) = false := by
  decide +kernel

theorem witness_BuildPublishRawResult :
    (operands deviceLed ledOn []).in0Bytes = deviceLed ∧ (operands deviceLed ledOn []).in1Bytes = ledOn ∧
      deviceLed.length ≤ 65535 ∧
      fits (operands deviceLed ledOn []).params.frameMax (17 + deviceLed.length + ledOn.length) = true ∧
      fits (lengths (some 16) 0 0 0).params.frameMax
        (17 + (lengths (some 16) 0 0 0).in0.len + (lengths (some 16) 0 0 0).in1.len) = false := by decide +kernel

theorem witness_BuildPublishLogResult :
    (operands topicLog [0x61] [0x68]).in0Bytes = topicLog ∧ (operands topicLog [0x61] [0x68]).in1Bytes = [0x61] ∧
      (operands topicLog [0x61] [0x68]).in2Bytes = [0x68] ∧ topicLog.length ≤ 65535 ∧ [(0x61 : Byte)].length ≤ 65535 ∧
      [(0x68 : Byte)].length + 1 ≤ 65535 ∧
      fits (operands topicLog [0x61] [0x68]).params.frameMax (29 + topicLog.length + 1 + 1) = true ∧
      65535 < (lengths none 0 0 65535).in2.len + 1 := by decide +kernel

theorem witness_BuildPublishPrintResult :
    (operands topicPrint [] [0x68]).in0Bytes = topicPrint ∧ (operands topicPrint [] [0x68]).in2Bytes = [0x68] ∧
      topicPrint.length ≤ 65535 ∧ [(0x68 : Byte)].length + 1 ≤ 65535 ∧
      fits (operands topicPrint [] [0x68]).params.frameMax (29 + topicPrint.length + 1) = true ∧
      65535 < (lengths none 0 0 65535).in2.len + 1 := by decide +kernel

/-- The first length above each limit, with the others at theirs: topic, filename, text of a log and of a print frame,
and then each frame one byte longer than `FRAME_MAX`. -/
theorem witness_BuildersRefuseWhatDoesNotFit :
    65535 < (lengths none 65536 0 0).in0.len ∧
    ((lengths none 65535 65536 0).in0.len ≤ 65535 ∧ 65535 < (lengths none 65535 65536 0).in1.len) ∧
    ((lengths none 0 65535 65535).in1.len ≤ 65535 ∧ 65535 < (lengths none 0 65535 65535).in2.len + 1) ∧
    ((lengths none 65535 0 65535).in0.len ≤ 65535 ∧ 65535 < (lengths none 65535 0 65535).in2.len + 1) ∧
    fits (lengths (some 16) 11 0 0).params.frameMax (6 + 11) = false ∧
    fits (lengths (some 16) 0 0 0).params.frameMax (17 + 0 + 0) = false ∧
    ((lengths (some 28) 0 0 65534).in2.len + 1 ≤ 65535 ∧
      fits (lengths (some 28) 0 0 65534).params.frameMax (29 + 0 + 0 + 65534) = false) ∧
    fits (lengths (some 28) 0 0 0).params.frameMax (29 + 0 + 0) = false := by decide +kernel

/-- A builder that is not refused, and one that sends all or part of its wire image. -/
theorem witness_BuiltFrames :
    (∀ i ∈ builders, seen (exec i (operands [0x41] [0x42] [0x43])) State.status = some 0x00) ∧
    (∀ i ∈ builders, seen (exec i { operands [0x41] [0x42] [0x43] with txAnswers := [5] }) State.status = some 0x02) := by
  decide +kernel

theorem witness_BuiltFrameChecksumIsConsistent :
    ∀ i ∈ builders, seen (exec i (operands [0x41] [] [])) (fun t => decide (t.status ≠ 0x03)) = some true := by
  decide +kernel

theorem witness_BuiltFrameLengths :
    ∀ i ∈ builders, seen (exec i (operands [] [] [])) (fun t => decide (t.status ≠ 0x03)) = some true := by
  decide +kernel

theorem witness_WireImageFirstBytes :
    ∀ i ∈ builders, seen (exec i (operands [] [0x00] [0x00])) (fun t => decide (t.status ≠ 0x03)) = some true := by
  decide +kernel

/-- An answer of exactly the wire image's length, and one of a byte less. -/
theorem witness_WriteCountsAcceptedBytes :
    seen (exec .buildSubscribe { operands [] [] [] with txAnswers := [8] })
      (fun t => decide (t.status ≠ 0x03 ∧ min 8 t.txbuf.length = t.txbuf.length)) = some true ∧
    seen (exec .buildSubscribe { operands [] [] [] with txAnswers := [7] })
      (fun t => decide (t.status ≠ 0x03 ∧ min 7 t.txbuf.length < t.txbuf.length)) = some true := by decide +kernel

/-- Two states that share the operands and differ elsewhere. -/
theorem witness_BuildersCarryNoState :
    ∀ s s' : State, s = operands [0x41] [0x42] [0x43] → s' = { s with seed := 0x1234, fbuf := [0x01], status := 0x07 } →
      s.params.frameMax = s'.params.frameMax ∧ s.in0Bytes = s'.in0Bytes ∧ s.in1Bytes = s'.in1Bytes ∧
      s.in2Bytes = s'.in2Bytes ∧ s.nodeId = s'.nodeId ∧ s.ver = s'.ver := by
  rintro s s' rfl rfl
  exact ⟨rfl, rfl, rfl, rfl, rfl, rfl⟩

/-- A gap of exactly `IDLE_TIMEOUT` ticks within the burst, and an event after its end. -/
theorem witness_ReadBurstEndsAfterGap :
    ∃ (s : State) (line : List (Nat × Byte)) (rest : List Input), rest ≠ [] ∧ (∀ x ∈ line, x.1 ≤ s.idleTimeout.toNat) ∧
      (∃ x ∈ line, x.1 = s.idleTimeout.toNat) ∧
      s.inputs = arrivals line ++ silence (s.idleTimeout.toNat + 1) ++ rest :=
  ⟨{ base with idleTimeout := 2, inputs := arrivals [(0, 0xAA), (2, 0x00)] ++ silence 3 ++ silence 1 },
    [(0, 0xAA), (2, 0x00)], silence 1, by decide, by decide, by decide, rfl⟩

/-- Iterations of both forms. -/
theorem witness_ReadBurstRefinesSourceLoop :
    ∃ (s : State) (evs : List LineEvent), s.inputs = evs.map Input.line ∧ evs.length = 3 :=
  ⟨{ base with inputs := [.line (.tick (some 0x41) false), .line (.poll (.chunk [0x42]) 0), .line (.poll .nothing 9)] },
    [.tick (some 0x41) false, .poll (.chunk [0x42]) 0, .poll .nothing 9], rfl, rfl⟩

theorem witness_ChunkingDoesNotMatter : ([0x41] : Bytes) ≠ [] ∧ ([0x42, 0x43] : Bytes) ≠ [] := by decide

/-- A failure of either form, after as much silence as a burst survives. -/
theorem witness_ReadFailureDiscardsBurst :
    ∀ e ∈ ([.tick none true, .poll .fail 0] : List LineEvent), answerOf e = .fail ∧
      ∃ (s : State) (line : List (Nat × Byte)) (n : Nat) (rest : List Input),
        (∀ x ∈ line, x.1 ≤ s.idleTimeout.toNat) ∧ n = s.idleTimeout.toNat ∧ line ≠ [] ∧
        s.inputs = arrivals line ++ silence n ++ .line e :: rest := by
  intro e he
  refine ⟨?_, { base with idleTimeout := 2, inputs := arrivals [(1, 0xAA)] ++ silence 2 ++ [.line e] },
    [(1, 0xAA)], 2, [], (show ∀ x ∈ [(1, (0xAA : Byte))], x.1 ≤ (2 : Word).toNat by decide),
    (show 2 = (2 : Word).toNat by decide), by decide, rfl⟩
  revert e
  decide

theorem witness_UnbrokenLineStaysBusy :
    (∃ (s : State) (line : List (Nat × Byte)), (∀ x ∈ line, x.1 ≤ s.idleTimeout.toNat) ∧ line.length = 2 ∧
      s.inputs = arrivals line) ∧
    ∃ (s : State) (b : Byte) (failed : Bool) (rest : List Input), s.busy = true ∧
      s.inputs = .line (.tick (some b) failed) :: rest :=
  ⟨⟨{ base with inputs := arrivals [(0, 0x01), (0, 0x02)] }, [(0, 0x01), (0, 0x02)], by decide, rfl, rfl⟩,
    { busyState with inputs := [.line (.tick (some 0x07) true)] }, 0x07, true, [], rfl, rfl⟩

/-- Q3, Q5 and Q6: 11 bytes; 12 bytes whose topic overruns by one; 13 bytes whose topic just fits. -/
theorem witness_ParsePublishResult :
    (operands (List.replicate 11 0x00) [] []).in0Bytes.length < 12 ∧
    (let p := (operands (List.replicate 8 0x00 ++ [0x01, 0x01, 0x01, 0x00]) [] []).in0Bytes
     p.length < 12 + fromLe (slice p 10 2)) ∧
    (let p := (operands (List.replicate 8 0x00 ++ [0x01, 0x01, 0x01, 0x00, 0x5A]) [] []).in0Bytes
     12 ≤ p.length ∧ 12 + fromLe (slice p 10 2) = p.length) := by decide +kernel

theorem witness_ParseRoundTrip :
    (List.replicate 11 (0x00 : Byte)).length < 12 ∧ ([] : Bytes).length < (0x0001 : Half).toNat ∧
    (List.replicate 65535 (0x41 : Byte)).length ≤ 65535 ∧ (operands bodyQ1 [] []).in0Bytes = bodyQ1 :=
  ⟨by decide, by decide, by rw [List.length_replicate], by decide +kernel⟩

theorem witness_OwnFramesParse :
    (List.replicate 65535 (0x41 : Byte)).length ≤ 65535 ∧ (List.replicate 65534 (0x41 : Byte)).length + 1 ≤ 65535 :=
  ⟨by rw [List.length_replicate], by rw [List.length_replicate]⟩

/-- A full registry that holds the handle, one that does not, and one with a last free entry. -/
theorem witness_RegisterResult :
    (∃ s : State, s.handle ∈ s.regy ∧ s.params.maxConsumers = some s.regy.length) ∧
    (∃ s : State, s.handle ∉ s.regy ∧ s.params.maxConsumers = some s.regy.length) ∧
    ∃ s : State, s.handle ∉ s.regy ∧ s.params.maxConsumers ≠ some s.regy.length ∧ s.regy.length = 2 :=
  ⟨⟨{ base with regy := [7, 9, 4], handle := 9 }, by decide⟩, ⟨{ base with regy := [7, 9, 4], handle := 5 }, by decide⟩,
    { base with regy := [7, 9], handle := 5 }, by decide⟩

theorem witness_RegistryOnlyGrows :
    (∃ t : State, step { base with handle := 7, inputs := [.host (.write .cmd 0x30)] } = .next t ∧ t.regy = [7]) ∧
    Instr.poll ≠ Instr.register := ⟨⟨_, rfl, by decide +kernel⟩, by decide⟩

/-- The steps its clauses tell apart: a REGISTER that appends, a reset, and one that is neither. -/
theorem witness_RegistryOnlyGrows_steps :
    seen (step { base with handle := 5, regy := [7], inputs := [.host (.write .cmd 0x30)] }) State.regy = some [7, 5] ∧
    seen (step { base with regy := [7], inputs := [.host (.reset 5)] }) State.regy = some [] ∧
    seen (step { base with regy := [7], inputs := [.host (.write .handle 5)] }) State.regy = some [7] := by
  decide +kernel

theorem witness_DispatchResult :
    (∃ s : State, s.recValid = true ∧ s.regy.length ≤ s.consumers.length ∧ s.regy.length = 2) ∧
    ∃ s : State, s.recValid = false ∧ s.regy.length = 1 :=
  ⟨⟨{ base with recValid := true, regy := [7, 9], consumers := [⟨.failed, []⟩, ⟨.ok, []⟩] }, by decide⟩,
    { base with regy := [7] }, by decide⟩

/-- Fewer answers listed than there are consumers. -/
theorem witness_EveryConsumerInvokedOnceInOrder :
    ∃ s : State, s.recValid = true ∧ s.consumers.length < s.regy.length :=
  ⟨{ base with recValid := true, regy := [7, 9, 4], consumers := [⟨.failed, []⟩] }, by decide⟩

theorem witness_CommandsFromConsumersAreRefused :
    ∃ (s : State) (quietly : List InvokeAnswer), s.regy.length ≤ s.consumers.length ∧
      quietly = s.consumers.map (fun a => { a with cmdWrites := [] }) ∧ quietly ≠ s.consumers :=
  ⟨{ base with recValid := true, regy := [7], consumers := [⟨.ok, [0x30]⟩] }, [⟨.ok, []⟩], by decide, rfl, by decide⟩

/-- Bursts of each kind: an accepted frame, an overflow, three bytes, another type, no record. -/
theorem witness_PollJudgesBurst :
    ∀ b ∈ ([frameE, frameE ++ List.replicate 363 0x00, [0x02, 0x00, 0x00], 0x03 :: frameE.drop 1, frameE.take 20] :
        List Bytes), ∃ (s : State) (line : List (Nat × Byte)) (rest : List Input) (got : Bytes),
      (∀ x ∈ line, x.1 ≤ s.idleTimeout.toNat) ∧
      s.inputs = arrivals line ++ silence (s.idleTimeout.toNat + 1) ++ rest ∧ got = line.map Prod.snd ∧ got = b := by
  intro b _
  refine ⟨{ base with inputs := burst b 0 }, b.map (fun x => (0, x)), [], b, ?_, ?_, ?_, rfl⟩
  · intro x hx
    obtain ⟨y, _, rfl⟩ := List.mem_map.mp hx
    exact Nat.zero_le _
  · exact (List.append_nil _).symm
  · rw [List.map_map]
    exact (List.map_id b).symm

/-- `E` and `E` with other bytes 1 to 3, each after the same gaps. -/
theorem witness_InboundChecksumIsNotVerified :
    ∃ (s s' : State) (line line' : List (Nat × Byte)) (rest : List Input), line ≠ line' ∧
      (∀ x ∈ line, x.1 ≤ s.idleTimeout.toNat) ∧ line'.map Prod.fst = line.map Prod.fst ∧
      (∀ k, k = 0 ∨ 4 ≤ k → (line'.map Prod.snd)[k]? = (line.map Prod.snd)[k]?) ∧
      s.inputs = arrivals line ++ silence (s.idleTimeout.toNat + 1) ++ rest ∧
      s' = { s with inputs := arrivals line' ++ silence (s.idleTimeout.toNat + 1) ++ rest } := by
  refine ⟨{ base with inputs := burst frameE 0 ++ [] },
    { base with inputs := burst ([0x02, 0xFF, 0x00, 0x00] ++ bodyQ1) 0 ++ [] }, frameE.map (fun x => (0, x)),
    ([0x02, 0xFF, 0x00, 0x00] ++ bodyQ1).map (fun x => (0, x)), [], by decide, by decide, by decide, ?_, rfl, rfl⟩
  intro k hk
  match k, hk with
  | 0, _ => rfl
  | k + 4, _ => rfl

theorem witness_PollExecutesInboundFrame :
    ∃ (s : State) (line : List (Nat × Byte)) (rest : List Input), (∀ x ∈ line, x.1 ≤ s.idleTimeout.toNat) ∧
      line.map Prod.snd = encode (.framePublishInbound 0x00 0x1EDB nid 0x01 0x01 deviceLed ledOn) ∧
      s.inputs = arrivals line ++ silence (s.idleTimeout.toNat + 1) ++ rest :=
  ⟨{ base with inputs := burst frameE 0 }, frameE.map (fun x => (0, x)), [], by decide, by decide,
    (List.append_nil _).symm⟩

/-- The chain of R191 on the frame `E`. -/
theorem witness_PollIsComposition :
    ∃ (s s1 s2 s3 s4 : State), exec .readBurst s = .next s1 ∧ s1.busy = false ∧ s1.status = 0x00 ∧ s1.rxOvf = false ∧
      4 ≤ s1.acc.length ∧ s1.acc.getD 0 0 = 0x02 ∧ s2.in0Bytes = s1.acc.drop 4 ∧ s2 = { s1 with in0 := s2.in0 } ∧
      exec .parsePublish s2 = .next s3 ∧ s3.recValid = true ∧ exec .dispatch s3 = .next s4 := by
  refine ⟨{ base with regy := [7], consumers := [⟨.ok, []⟩], inputs := burst frameE 0 },
    { base with regy := [7], consumers := [⟨.ok, []⟩], acc := frameE },
    { base with regy := [7], consumers := [⟨.ok, []⟩], acc := frameE, in0 := holding bodyQ1 }, _, _,
    congrArg Host.Outcome.next (?_ : State.drain _ _ _ = _), rfl, rfl, rfl, ?_, rfl, ?_, rfl, rfl, ?_, rfl⟩
  all_goals decide +kernel

/-- A frame that fills `FBUF`, and one a byte longer. -/
theorem witness_OutboundFramesArePrepared :
    (Instr.frameSubscribe deviceLed).wellFormed = true ∧ tableOf (.frameSubscribe deviceLed) = .subscribe ∧
    fits (lengths (some 16) 0 0 0).params.frameMax (encode (.frameSubscribe deviceLed)).length = true ∧
    fits (lengths (some 15) 0 0 0).params.frameMax (encode (.frameSubscribe deviceLed)).length = false := by
  decide +kernel

/-- A frame that fills `ACC`. -/
theorem witness_InboundFrameIsDispatched :
    ∃ s : State, deviceLed.length ≤ 65535 ∧ s.params.rxMax = some 38 ∧
      fits s.params.rxMax (16 + deviceLed.length + ledOn.length) = true ∧ s.regy.length ≤ s.consumers.length ∧
      s.regy.length = 1 :=
  ⟨{ base with params := { base.params with rxMax := some 38 }, regy := [7], consumers := [⟨.failed, [0x31]⟩] },
    by decide⟩

theorem witness_DecodeOfEncode :
    (Instr.poll).wellFormed = true ∧ (Instr.framePublishLog nid topicLog [] [0x00]).wellFormed = true ∧
    (Instr.framePublishRaw nid (List.replicate 65535 0x41) 0xFF []).wellFormed = true :=
  ⟨rfl, by decide, by simp only [Instr.wellFormed, maxField, List.length_replicate]; decide⟩

theorem witness_EncodeOfDecode : decode .command [0x32] = .ok .poll ∧
    decode .publishInbound frameE = .ok (.framePublishInbound 0x00 0x1EDB nid 0x01 0x01 deviceLed ledOn) :=
  ⟨rfl, by decide +kernel⟩

/-- The codes next to the assigned ones, and both ends of the range. -/
theorem witness_CommandCodes :
    ∀ c ∈ ([0x00, 0x03, 0x0F, 0x14, 0x1F, 0x22, 0x2F, 0x33, 0xFF] : Bytes),
      c ∉ ([0x01, 0x02, 0x10, 0x11, 0x12, 0x13, 0x20, 0x21, 0x30, 0x31, 0x32] : Bytes) := by decide

theorem witness_StepRunsDecodedCommand :
    ∃ (s : State) (v : Nat) (rest : List Input) (i : Instr), s.busy = false ∧
      s.inputs = .host (.write .cmd v) :: rest ∧ decode .command [BitVec.ofNat 8 v] = .ok i :=
  ⟨{ base with inputs := [.host (.write .cmd 0x01)] }, 0x01, [], .checksum, rfl, rfl, rfl⟩

theorem witness_UnassignedCodeIsErrCmd :
    ∃ (s : State) (c : Byte) (rest : List Input), s.busy = false ∧
      c ∉ ([0x01, 0x02, 0x10, 0x11, 0x12, 0x13, 0x20, 0x21, 0x30, 0x31, 0x32] : Bytes) ∧
      s.inputs = .host (.write .cmd c.toNat) :: rest :=
  ⟨{ base with inputs := [.host (.write .cmd 0x14)] }, 0x14, [], rfl, by decide, rfl⟩

/-- One access of each kind to a busy block. -/
theorem witness_BusyBlockIsNotDisturbed :
    busyState.busy = true ∧ Reg.seed ≠ .cmd ∧ Reg.status ≠ .flags ∧
    ∀ a ∈ [HostAccess.write .cmd 0x30, .write .seed 1, .writeBuf .in0 0 [0x01], .read .status, .readBuf .acc 0 0,
        .readEntry 0, .read .flags],
      ∃ (s : State) (rest : List Input), s.busy = true ∧ s.inputs = .host a :: rest :=
  ⟨rfl, by decide, by decide, fun a _ => ⟨{ busyState with inputs := [.host a] }, [], rfl, rfl⟩⟩

/-- Each register at the largest value its clause names, and `IDLE_TIMEOUT` at its largest legal value too. -/
theorem witness_HostRegisterWrites :
    (∀ r v, ∃ (s : State) (rest : List Input), s.busy = false ∧ s.inputs = .host (.write r v) :: rest) ∧
    255 < 2 ^ base.params.cbW ∧ (0xFFFFFFFF : Ticks).toNat = 2 ^ Config.timeW - 1 ∧
    (0xFFFFFFFE : Ticks).toNat ≠ 2 ^ Config.timeW - 1 ∧
    fits base.params.frameMax (400 : Word).toNat = true ∧ fits base.params.frameMax (401 : Word).toNat = false ∧
    Reg.nodeId ∈ readOnly ∧ (BufId.in2, Reg.in2Len) ∈ operandBufs :=
  ⟨fun r v => ⟨{ base with inputs := [.host (.write r v)] }, [], rfl, rfl⟩, by decide, by decide, by decide, by decide,
    by decide, by decide, by decide⟩

theorem witness_HostRegisterReads :
    (∀ r : Reg, ∃ (s : State) (rest : List Input), s.busy = false ∧ s.recValid = true ∧
      s.inputs = .host (.read r) :: rest) ∧
    (∃ (s : State) (rest : List Input), s.busy = false ∧ s.recValid = false ∧
      s.inputs = .host (.read .recType) :: rest) ∧
    ∀ k : Nat, ∃ (s : State) (rest : List Input), s.busy = false ∧ s.regy.length = 2 ∧
      s.inputs = .host (.readEntry k) :: rest :=
  ⟨fun r => ⟨{ base with recValid := true, inputs := [.host (.read r)] }, [], rfl, rfl, rfl⟩,
    ⟨{ base with inputs := [.host (.read .recType)] }, [], rfl, rfl, rfl⟩,
    fun k => ⟨{ base with regy := [7, 9], inputs := [.host (.readEntry k)] }, [], rfl, rfl, rfl⟩⟩

/-- The last entry, and the first that is none. -/
theorem witness_HostRegisterReads_entries :
    seen (step { base with regy := [7, 9], inputs := [.host (.readEntry 1)] }) State.reply = some (.value 9) ∧
    seen (step { base with regy := [7, 9], inputs := [.host (.readEntry 2)] }) State.reply = some .noValue := by
  decide +kernel

/-- A write to each operand buffer that ends at the capacity, one to a read-only buffer, and reads that end at the length,
with and without a record. -/
theorem witness_BufferWritesAndReads :
    (∀ x ∈ operandBufs, ∃ (s : State) (off : Nat) (b : Bytes) (rest : List Input), s.busy = false ∧
      off + b.length = 400 ∧ fits s.params.frameMax (off + b.length) = true ∧
      s.inputs = .host (.writeBuf x.1 off b) :: rest) ∧
    (∃ (s : State) (b : Bytes) (rest : List Input), s.busy = false ∧ (BufId.acc, s.acc) ∈ resultBufs s ∧
      s.inputs = .host (.writeBuf .acc 0 b) :: rest) ∧
    ∀ valid : Bool, ∃ (s : State) (off n : Nat) (rest : List Input), s.busy = false ∧ s.recValid = valid ∧
      off + n = s.record.topic.length ∧ 0 < n ∧ (BufId.recTopic, s.record.topic) ∈ resultBufs s ∧
      s.inputs = .host (.readBuf .recTopic off n) :: rest :=
  ⟨fun x _ => ⟨{ base with inputs := [.host (.writeBuf x.1 398 [0x01, 0x02])] }, 398, [0x01, 0x02], [], rfl, rfl,
      (by decide : fits base.params.frameMax 400 = true), rfl⟩,
    ⟨{ base with inputs := [.host (.writeBuf .acc 0 [])] }, [], [], rfl, by simp [resultBufs], rfl⟩,
    fun valid => ⟨{ base with recValid := valid, record := recordQ1, inputs := [.host (.readBuf .recTopic 9 1)] }, 9, 1, [],
      rfl, rfl, rfl, by decide, by simp [resultBufs], rfl⟩⟩

/-- The same, one byte further. -/
theorem witness_AccessesOutsideBuffers :
    (∃ (s : State) (off n : Nat) (rest : List Input), s.busy = false ∧ s.in1Bytes.length + 1 = off + n ∧
      s.inputs = .host (.readBuf .in1 off n) :: rest) ∧
    ∀ x ∈ operandBufs, ∃ (s : State) (off : Nat) (b : Bytes) (rest : List Input), s.busy = false ∧ off + b.length = 401 ∧
      fits s.params.frameMax (off + b.length) = false ∧ s.inputs = .host (.writeBuf x.1 off b) :: rest :=
  ⟨⟨{ operands [] [0xAA, 0xBB] [] with inputs := [.host (.readBuf .in1 1 2)] }, 1, 2, [], rfl, rfl, rfl⟩,
    fun x _ => ⟨{ base with inputs := [.host (.writeBuf x.1 399 [0x01, 0x02])] }, 399, [0x01, 0x02], [], rfl, rfl,
      (by decide : fits base.params.frameMax 401 = false), rfl⟩⟩

theorem witness_ResetAbandonsEverything :
    ∃ (s : State) (node : NodeId) (rest : List Input), s.busy = true ∧ s.inputs = .host (.reset node) :: rest :=
  ⟨{ busyState with inputs := [.host (.reset 5)] }, 5, [], rfl, rfl⟩

/-- Parameters with a `FRAME_MAX` far from `RX_MAX`. -/
theorem witness_ResetValues :
    ∃ (p : Params) (t : State), p.topicsFit = false ∧ t = State.construct p nid 0 :=
  ⟨⟨some 256, some 1024, none, 8⟩, _, by decide, rfl⟩

/-- A running reader with a partly filled accumulator, a registry and a built frame. -/
def running : State :=
  { operands [0x41] [] [] with
    activity := .reading ⟨true, 1, [0x02], false⟩, idleTimeout := 3, regy := [7, 9],
    fbuf := [0x03, 0x00, 0x7D, 0x0C, 0x00, 0x00], txbuf := [0x02, 0x03, 0x03, 0x7D, 0x0C, 0x01, 0x01, 0x00],
    inputs := [.line (.tick (some 0x00) false)] }

theorem witness_StepKeepsInvariant :
    ∃ s t : State, Safety.Inv s ∧ s.busy = true ∧ s.regy ≠ [] ∧ s.fbuf ≠ [] ∧ step s = .next t := by
  refine ⟨running, _, ⟨⟨?_, ?_, ?_⟩, ⟨?_, ?_, ?_⟩, ⟨?_, ?_, ?_⟩, ?_, ⟨?_, .inr ⟨?_, ?_⟩⟩, ⟨?_, ?_⟩, ⟨⟨?_, ?_⟩, ?_, ?_⟩,
    ⟨?_, ?_, ?_, ?_⟩, fun h => absurd h ?_, ?_⟩, ?_, ?_, ?_, rfl⟩
  all_goals decide +kernel

theorem witness_NodeIdIsFixed :
    (∃ s t : State, step s = .next t ∧ ∀ a, s.inputs ≠ [.host a]) ∧
    ∃ (s t : State) (node : NodeId) (rest : List Input), step s = .next t ∧ s.inputs = .host (.reset node) :: rest :=
  ⟨⟨base, _, rfl, fun _ h => by cases h⟩, { base with inputs := [.host (.reset 5)] }, _, 5, [], rfl, rfl⟩

theorem witness_CommandsWriteOnlyTheirResults :
    tableOf .dispatch = .command ∧ Instr.dispatch ∉ builders ∧ Instr.dispatch ≠ .register ∧ Instr.dispatch ≠ .poll ∧
    Instr.dispatch ≠ .readBurst ∧ Instr.dispatch ≠ .parsePublish ∧ Instr.dispatch ≠ .checksum ∧
    Instr.dispatch ≠ .stuff ∧ Instr.checksum ≠ .dispatch := by decide

/-- READ_BURST ends with `OK`, with `ERR_RX`, or is still busy. -/
theorem witness_StatusByCommand :
    seen (exec .readBurst { base with status := 0x07, inputs := silence 1 }) (fun t => (t.status, t.busy)) =
      some (0x00, false) ∧
    seen (exec .readBurst { base with status := 0x07, inputs := [.line (.tick none true)] })
      (fun t => (t.status, t.busy)) = some (0x01, false) ∧
    seen (exec .readBurst { base with status := 0x07, inputs := [] }) (fun t => (t.status, t.busy)) =
      some (0x07, true) := by decide +kernel

theorem witness_TracesOnlyGrow :
    ∃ s t : State, step s = .next t ∧ s.txTrace.length < t.txTrace.length ∧ ∀ node rest,
      s.inputs ≠ .host (.reset node) :: rest :=
  ⟨{ operands deviceLed [] [] with inputs := [.host (.write .cmd 0x10)] }, _, rfl, by decide +kernel,
    fun _ _ h => by cases h⟩

/-- A READ_BURST and a POLL whose clock comes to the timeout and exceeds it, bytes that fit `ACC` and that overflow it, and
a failure of either form. -/
theorem witness_WaitingReaderEnds :
    (∀ (poll : Bool) (e : LineEvent), ∃ (s : State) (r : Reading) (rest : List Input),
      s.activity = .reading r ∧ r.forPoll = poll ∧ r.idle = 1 ∧ s.idleTimeout = 2 ∧ s.recValid = false ∧
      s.dispatched = 0 ∧ s.inputs = .line e :: rest ∧ s.params.rxMax = some 2 ∧ r.acc.length = 1) ∧
    (∀ e ∈ ([.tick (some 0x05) true, .poll (.chunk [0x05]) 9] : List LineEvent), answerOf e = .chunk [0x05]) ∧
    answerOf (.poll (.chunk [0x05, 0x06]) 0) = .chunk [0x05, 0x06] ∧
    answerOf (.tick none true) = .fail ∧ answerOf (.poll .fail 0) = .fail ∧
    answerOf (.tick none false) = .nothing ∧ 1 + elapsedOf (.tick none false) ≤ (2 : Ticks).toNat ∧
    answerOf (.poll (.chunk []) 2) = .chunk [] ∧ (2 : Ticks).toNat < 1 + elapsedOf (.poll (.chunk []) 2) :=
  ⟨fun poll e => ⟨{ base with
      params := { base.params with rxMax := some 2 }, activity := .reading ⟨poll, 1, [0x02], false⟩, idleTimeout := 2,
      inputs := [.line e] }, ⟨poll, 1, [0x02], false⟩, [], rfl, rfl, rfl, rfl, rfl, rfl, rfl, rfl, rfl⟩, by decide⟩

/-- A byte that arrives after a read of `FLAGS` in the middle of a wait is not lost. -/
theorem test_byte_after_flags :
    seen (step { base with activity := .reading ⟨true, 1, [0x02], false⟩, inputs := [.line (.tick (some 0x05) false)] })
      State.activity = some (.reading ⟨true, 0, [0x02, 0x05], false⟩) := by decide +kernel

end Sys2Proof.Tests
end

section
/-! What the host's accesses do: the step that makes one, and one equation per access on an idle and on a busy block (R13,
R30, R45, R49, R242); and what a step does when no event is listed. -/

namespace Sys2Proof.Machine

open Sys2Proof Sys2Proof.Safety

/-! ### The step that makes an access -/

theorem State.fetch_host {s : State} {a : HostAccess} {rest : List Input} (h : s.inputs = .host a :: rest) :
    s.fetch = { s with inputs := rest }.access a := by
  unfold State.fetch
  rw [h]

theorem step_of_fetch_command {s s' : State} {i : Instr} (h : s.fetch = .command i s') : step s = exec i s' := by
  unfold step
  rw [h]

theorem step_of_fetch_over {s : State} {o : Host.Outcome State Fault Refusal} (h : s.fetch = .over o) : step s = o := by
  unfold step
  rw [h]

theorem State.access_write {r : Reg} (hr : r ≠ .cmd) (s : State) (v : Nat) :
    s.access (.write r v) = .over (.next (s.hostWrite r v)) := by
  simp [State.access]

section
variable {s : State} {rest : List Input}

theorem step_write {r : Reg} {v : Nat} (hr : r ≠ .cmd) (h : s.inputs = .host (.write r v) :: rest) :
    step s = .next ({ s with inputs := rest }.hostWrite r v) :=
  step_of_fetch_over ((State.fetch_host h).trans (State.access_write hr _ v))

theorem step_read {r : Reg} (h : s.inputs = .host (.read r) :: rest) :
    step s = .next ({ s with inputs := rest }.hostRead r) := step_of_fetch_over (State.fetch_host h)

theorem step_writeBuf {id : BufId} {off : Nat} {b : Bytes} (h : s.inputs = .host (.writeBuf id off b) :: rest) :
    step s = { s with inputs := rest }.hostWriteBuf id off b := step_of_fetch_over (State.fetch_host h)

theorem step_readBuf {id : BufId} {off n : Nat} (h : s.inputs = .host (.readBuf id off n) :: rest) :
    step s = .next ({ s with inputs := rest }.hostReadBuf id off n) := step_of_fetch_over (State.fetch_host h)

theorem step_readEntry {k : Nat} (h : s.inputs = .host (.readEntry k) :: rest) :
    step s = .next ({ s with inputs := rest }.hostReadEntry k) := step_of_fetch_over (State.fetch_host h)

end

/-! ### Starting a command (R13) -/

theorem State.start_busy {s : State} (hb : s.busy = true) (code : Byte) :
    s.start code = .over (.next (s.refuseBusy code)) := if_pos hb

theorem State.start_idle {s : State} {code : Byte} {i : Instr} (hb : s.busy = false)
    (hd : decodeCommand code = .ok i) : s.start code = .command i { s with cmd := code, reply := .done } := by
  rcases s.start_cases code with ⟨hbusy, _⟩ | ⟨_, j, hj, hstart⟩ | ⟨_, e, he, _⟩
  · rw [hb] at hbusy; cases hbusy
  · obtain rfl := Except.ok.inj (hj.symm.trans hd)
    exact hstart
  · rw [he] at hd; cases hd

/-! ### Reads (R30, R45, R49) -/

theorem flagsWord_toNat (busy recValid rxOvf : Bool) :
    (flagsWord busy recValid rxOvf).toNat = rxOvf.toNat * 4 + recValid.toNat * 2 + busy.toNat := by
  cases busy <;> cases recValid <;> cases rxOvf <;> rfl

section
variable {s : State}

theorem State.hostRead_busy (hb : s.busy = true) {r : Reg} (hr : r ≠ .flags) :
    s.hostRead r = { s with reply := .noValue } := by
  simp [State.hostRead, hb, hr]

theorem State.hostRead_flags (s : State) :
    s.hostRead .flags =
      { s with reply := .value (s.rxOvf.toNat * 4 + s.recValid.toNat * 2 + s.busy.toNat) } := by
  simp [State.hostRead, State.regValue, readReply, State.flags, flagsWord_toNat]

theorem State.hostRead_idle (hb : s.busy = false) (r : Reg) :
    s.hostRead r = { s with reply := readReply (s.regValue r) } := by
  simp [State.hostRead, hb]

theorem State.hostReadBuf_busy (hb : s.busy = true) (id : BufId) (off n : Nat) :
    s.hostReadBuf id off n = { s with reply := .noValue } := by
  simp [State.hostReadBuf, hb]

theorem State.hostReadBuf_inside (hb : s.busy = false) {id : BufId} {off n : Nat} (h : off + n ≤ (s.buffer id).length) :
    s.hostReadBuf id off n =
      { s with reply := if s.readable id then .bytes (slice (s.buffer id) off n) else .noValue } := by
  cases hr : s.readable id <;> simp [State.hostReadBuf, hb, hr, h]

theorem State.hostReadBuf_outside {id : BufId} {off n : Nat} (h : (s.buffer id).length < off + n) :
    s.hostReadBuf id off n = { s with reply := .noValue } := by
  simp [State.hostReadBuf, Nat.not_le.mpr h]

theorem State.hostReadEntry_busy (hb : s.busy = true) (k : Nat) :
    s.hostReadEntry k = { s with reply := .noValue } := by
  simp [State.hostReadEntry, hb]

theorem State.hostReadEntry_idle (hb : s.busy = false) (k : Nat) :
    s.hostReadEntry k = { s with reply := readReply (s.regy[k]?) } := by
  simp [State.hostReadEntry, hb]

/-- Only the record buffers can be unreadable, and are while there is no record (R33). -/
theorem State.readable_eq_false_iff (s : State) (id : BufId) :
    s.readable id = false ↔ (id = .recTopic ∨ id = .recData) ∧ s.recValid = false := by
  cases id <;> simp [State.readable]

/-! ### Register writes (R15 to R18, R44, R211) -/

theorem State.hostWrite_busy (hb : s.busy = true) (r : Reg) (v : Nat) : s.hostWrite r v = s.declined := if_pos hb

theorem State.hostWrite_idle (hb : s.busy = false) (r : Reg) (v : Nat) : s.hostWrite r v = s.writeReg r v :=
  if_neg (by rw [hb]; decide)

theorem State.writeReg_readOnly {r : Reg} (hr : r ∈ readOnly) (v : Nat) : s.writeReg r v = s.declined := by
  have h : ∀ x ∈ readOnly, s.writeReg x v = s.declined := by simp [readOnly, State.writeReg]
  exact h r hr

/-- A length register above the capacity is not written. -/
theorem State.writeReg_len_none {x : BufId × Reg} (hx : x ∈ operandBufs) {v : Nat}
    (h : (operandBuf s x.1).setLen x.1 s.params.frameMax s.free.cell (shown v) = none) :
    s.writeReg x.2 v = s.declined := by
  simp only [operandBufs, List.mem_cons, List.not_mem_nil, or_false] at hx
  rcases hx with rfl | rfl | rfl <;> simp only [operandBuf] at h <;> simp only [State.writeReg, h]

/-- A length register that is written changes its buffer, and draws free values. -/
theorem State.writeReg_len_some {x : BufId × Reg} (hx : x ∈ operandBufs) {v : Nat} {b : InBuf}
    (h : (operandBuf s x.1).setLen x.1 s.params.frameMax s.free.cell (shown v) = some b) :
    s.writeReg x.2 v =
      { withOperandBuf s x.1 b with reply := .done, free := { s.free with cell := s.free.cell + 1 } } := by
  simp only [operandBufs, List.mem_cons, List.not_mem_nil, or_false] at hx
  rcases hx with rfl | rfl | rfl <;> simp only [operandBuf] at h <;>
    simp only [State.writeReg, h, State.accepted, withOperandBuf]

/-- Everything a register write by an idle block can do, `CMD` apart. -/
theorem State.writeReg_cases (s : State) (r : Reg) (v : Nat) :
    s.writeReg r v = s.declined ∨
    (∃ x, s.writeReg r v = { s with seed := x, reply := .done }) ∨
    (∃ x, s.writeReg r v = { s with ver := x, reply := .done }) ∨
    (∃ x, x < 2 ^ s.params.cbW ∧ s.writeReg r v = { s with handle := x, reply := .done }) ∨
    (∃ x, x ≠ BitVec.allOnes Config.timeW ∧ s.writeReg r v = { s with idleTimeout := x, reply := .done }) ∨
    (∃ id b k n, (operandBuf s id).setLen id s.params.frameMax k n = some b ∧
      s.writeReg r v =
        { withOperandBuf s id b with reply := .done, free := { s.free with cell := s.free.cell + 1 } }) := by
  have hlen : ∀ x ∈ operandBufs, s.writeReg x.2 v = s.declined ∨
      ∃ id b k n, (operandBuf s id).setLen id s.params.frameMax k n = some b ∧ s.writeReg x.2 v =
        { withOperandBuf s id b with reply := .done, free := { s.free with cell := s.free.cell + 1 } } := by
    intro x hx
    cases hb : (operandBuf s x.1).setLen x.1 s.params.frameMax s.free.cell (shown v) with
    | none => exact .inl (State.writeReg_len_none hx hb)
    | some b => exact .inr ⟨x.1, b, _, _, hb, State.writeReg_len_some hx hb⟩
  cases r with
  | seed => exact .inr (.inl ⟨_, rfl⟩)
  | ver => exact .inr (.inr (.inl ⟨_, rfl⟩))
  | handle => exact .inr (.inr (.inr (.inl ⟨_, Nat.mod_lt _ (Nat.two_pow_pos _), rfl⟩)))
  | idleTimeout =>
    by_cases hv : BitVec.ofNat Config.timeW v = BitVec.allOnes Config.timeW
    · exact .inl (if_pos hv)
    · exact .inr (.inr (.inr (.inr (.inl ⟨_, hv, if_neg hv⟩))))
  | in0Len => exact (hlen (.in0, .in0Len) (by decide)).imp_right (.inr ∘ .inr ∘ .inr ∘ .inr)
  | in1Len => exact (hlen (.in1, .in1Len) (by decide)).imp_right (.inr ∘ .inr ∘ .inr ∘ .inr)
  | in2Len => exact (hlen (.in2, .in2Len) (by decide)).imp_right (.inr ∘ .inr ∘ .inr ∘ .inr)
  | cmd | status | info | flags | nodeId | crc | txCount | regCount | dispatched | recNodeId | recType | recVersion
  | recTopicLen | recDataLen | outLen | fbufLen | txbufLen | accLen => exact .inl rfl

/-! ### Buffer writes (R45) -/

theorem State.hostWriteBuf_busy (hb : s.busy = true) (id : BufId) (off : Nat) (bytes : Bytes) :
    s.hostWriteBuf id off bytes = .next s.declined := if_pos hb

theorem State.hostWriteBuf_inside (hb : s.busy = false) {x : BufId × Reg} (hx : x ∈ operandBufs) {off : Nat}
    {bytes : Bytes} (hfit : fits s.params.frameMax (off + bytes.length) = true) :
    s.hostWriteBuf x.1 off bytes = .next
      { withOperandBuf s x.1 { operandBuf s x.1 with mem := (operandBuf s x.1).mem.writeAll off bytes } with
        reply := .done } := by
  simp only [operandBufs, List.mem_cons, List.not_mem_nil, or_false] at hx
  rcases hx with rfl | rfl | rfl <;> simp [State.hostWriteBuf, hb, hfit, State.accepted, withOperandBuf, operandBuf]

theorem State.hostWriteBuf_outside (hb : s.busy = false) {x : BufId × Reg} (hx : x ∈ operandBufs) {off : Nat}
    {bytes : Bytes} (hfit : fits s.params.frameMax (off + bytes.length) = false) :
    s.hostWriteBuf x.1 off bytes = .fault (.writeOutside x.1 off bytes.length) := by
  simp only [operandBufs, List.mem_cons, List.not_mem_nil, or_false] at hx
  rcases hx with rfl | rfl | rfl <;> simp [State.hostWriteBuf, hb, hfit]

theorem State.hostWriteBuf_result {id : BufId} {content : Bytes} (hx : (id, content) ∈ resultBufs s) (off : Nat)
    (bytes : Bytes) : s.hostWriteBuf id off bytes = .next s.declined := by
  have h : ∀ x ∈ resultBufs s, s.hostWriteBuf x.1 off bytes = .next s.declined := by
    simp [resultBufs, State.hostWriteBuf]
  exact h _ hx

/-- Every buffer is an operand buffer or one the host can only read (R30). -/
theorem operand_or_result (s : State) (id : BufId) :
    (∃ r, (id, r) ∈ operandBufs) ∨ ∃ content, (id, content) ∈ resultBufs s := by
  cases id <;> simp [operandBufs, resultBufs]

/-- Everything a buffer write that ends in a next state can do. -/
theorem State.hostWriteBuf_next {s t : State} {id : BufId} {off : Nat} {bytes : Bytes}
    (h : s.hostWriteBuf id off bytes = .next t) :
    t = s.declined ∨ (fits s.params.frameMax (off + bytes.length) = true ∧
      t = { withOperandBuf s id { operandBuf s id with mem := (operandBuf s id).mem.writeAll off bytes } with
        reply := .done }) := by
  cases hb : s.busy with
  | true => exact .inl (Host.Outcome.next.inj (h.symm.trans (State.hostWriteBuf_busy hb id off bytes)))
  | false =>
    rcases operand_or_result s id with ⟨r, hx⟩ | ⟨content, hx⟩
    · cases hfit : fits s.params.frameMax (off + bytes.length) with
      | true => exact .inr ⟨rfl, Host.Outcome.next.inj (h.symm.trans (State.hostWriteBuf_inside hb hx hfit))⟩
      | false => cases h.symm.trans (State.hostWriteBuf_outside hb hx hfit)
    · exact .inl (Host.Outcome.next.inj (h.symm.trans (State.hostWriteBuf_result hx off bytes)))

end

/-! ### No event listed -/

/-- With no event listed the line gives a free one, which a running reader takes like any other. -/
theorem State.quiet_cases (s : State) :
    s.quiet = s ∨ ∃ fr e, s.quiet = { s with free := fr }.lineEvent e := by
  unfold State.quiet
  split
  · exact .inl rfl
  · rename_i r hr
    exact .inr ⟨{ s.free with line := s.free.line + 1 }, Config.freeLine s.free.line, by simp only [State.lineEvent, hr]⟩

end Sys2Proof.Machine
end

section
/-! What the codec and the operand memories owe the invariant: the largest output of the encoder, the checksum of a frame
that FINALIZE has left, the cells of a written or shortened operand buffer. -/

namespace Sys2Proof.Machine

open Sys2Proof Sys2Proof.Safety

/-! ### Capacities -/

@[simp] theorem fits_zero (cap : Option Nat) : fits cap 0 = true := by cases cap <;> simp [fits]

theorem fits_of_le {cap : Option Nat} {n m : Nat} (h : fits cap n = true) (hm : m ≤ n) : fits cap m = true := by
  cases cap with
  | none => rfl
  | some c =>
    simp only [fits, decide_eq_true_eq] at h ⊢
    omega

/-- A capacity that a buffer fits, and of which one more does not, is the buffer's length. -/
theorem eq_some_of_fits_of_not_fits_succ {cap : Option Nat} {n : Nat} (h : fits cap n = true)
    (h' : ¬fits cap (n + 1) = true) : cap = some n := by
  cases cap with
  | none => exact absurd rfl h'
  | some c =>
    simp only [fits, decide_eq_true_eq] at h h'
    exact congrArg some (by omega)

/-- What fits `IN0`, or what `ACC` holds, fits `REC_DATA` (R41). -/
theorem fits_dataCapacity {p : Params} {n : Nat} (h : fits p.frameMax n = true ∨ fits p.rxMax n = true) :
    fits (dataCapacity p) n = true := by
  rcases p with ⟨f, r, _, _⟩
  cases f <;> cases r <;> simp only [dataCapacity, fits, decide_eq_true_eq] at h ⊢
  omega

/-! ### The encoder's output (R105) -/

@[simp] theorem length_segment (p : Bytes) : (segment p).length = p.length + 1 := rfl

/-- Every pending or scanned byte goes out once; the last segment has a code byte, and so does each run of 254 bytes. -/
theorem length_stuffFrom_le (p b : Bytes) :
    (stuffFrom p b).length ≤ p.length + b.length + 1 + (p.length + b.length) / 254 := by
  induction b generalizing p with
  | nil => simp only [stuffFrom_nil, length_segment, List.length_nil]; omega
  | cons x rest ih =>
    have hnil := ih []
    have happ := ih (p ++ [x])
    simp only [List.length_nil, List.length_append, List.length_cons] at hnil happ
    rw [stuffFrom_cons]
    split
    · simp only [List.length_append, length_segment, List.length_cons]; omega
    · split
      · rename_i _ hcap
        simp only [segmentCap] at hcap
        simp only [List.length_append, length_segment, List.length_cons, List.length_nil]; omega
      · simp only [List.length_cons]; omega

theorem length_stuff_le (b : Bytes) : (stuff b).length ≤ stuffedMax b.length := by
  have h := length_stuffFrom_le [] b
  simp only [List.length_nil, Nat.zero_add] at h
  exact h

/-- `OUT` has room for the stuffed form of whatever fits `IN0` (R41). -/
theorem fits_stuff {cap : Option Nat} {b : Bytes} (h : fits cap b.length = true) :
    fits (outMax cap) (stuff b).length = true := by
  cases cap with
  | none => rfl
  | some m =>
    have hs := length_stuff_le b
    simp only [outMax, fits, decide_eq_true_eq, stuffedMax] at h hs ⊢
    omega

/-! ### Finished frames (R116) -/

/-- FINALIZE of a frame with a zero checksum field leaves the checksum of that frame in the field. -/
theorem checksumHolds_finalizeFrame (type : Byte) (body : Bytes) :
    checksumHolds (finalizeFrame (header type ++ body)) = true := by
  simp [checksumHolds, finalizeFrame, setChecksum, header, slice, le16, lo8, hi8]

/-- Each outbound frame is a header with a zero checksum field and a body (R60). -/
theorem subscribeFrame_header (t : Bytes) : ∃ body, subscribeFrame t = header typeSubscribe ++ body :=
  ⟨(subscribeFrame t).drop 4, rfl⟩

theorem rawFrame_header (n : NodeId) (t : Bytes) (v : Byte) (d : Bytes) :
    ∃ body, rawFrame n t v d = header typePublish ++ body := ⟨(rawFrame n t v d).drop 4, rfl⟩

theorem logFrame_header (n : NodeId) (t f x : Bytes) : ∃ body, logFrame n t f x = header typePublish ++ body :=
  ⟨(logFrame n t f x).drop 4, rfl⟩

theorem printFrame_header (n : NodeId) (t x : Bytes) : ∃ body, printFrame n t x = header typePublish ++ body :=
  ⟨(printFrame n t x).drop 4, rfl⟩

/-- A frame that the length check lets through fits `FBUF` (R118, R124). -/
theorem fits_of_subscribeCheck {cap : Option Nat} {t : Bytes} (h : subscribeCheck cap t.length = none) :
    fits cap (subscribeFrame t).length = true := by
  simpa using ((lengthCheck_eq_none_iff _ _ _).mp h).2

theorem fits_of_rawCheck {cap : Option Nat} {n : NodeId} {t : Bytes} {v : Byte} {d : Bytes}
    (h : rawCheck cap t.length d.length = none) : fits cap (rawFrame n t v d).length = true := by
  simpa using ((lengthCheck_eq_none_iff _ _ _).mp h).2

theorem fits_of_logCheck {cap : Option Nat} {n : NodeId} {t f x : Bytes}
    (h : logCheck cap t.length f.length x.length = none) : fits cap (logFrame n t f x).length = true := by
  simpa using ((lengthCheck_eq_none_iff _ _ _).mp h).2

theorem fits_of_printCheck {cap : Option Nat} {n : NodeId} {t x : Bytes}
    (h : printCheck cap t.length x.length = none) : fits cap (printFrame n t x).length = true := by
  simpa using ((lengthCheck_eq_none_iff _ _ _).mp h).2

@[simp] theorem State.length_in0Bytes (s : State) : s.in0Bytes.length = s.in0.len := InBuf.length_bytes _ _
@[simp] theorem State.length_in1Bytes (s : State) : s.in1Bytes.length = s.in1.len := InBuf.length_bytes _ _
@[simp] theorem State.length_in2Bytes (s : State) : s.in2Bytes.length = s.in2.len := InBuf.length_bytes _ _

/-! ### Parsed records (R160) -/

theorem fromLe_lt (b : Bytes) : fromLe b < 256 ^ b.length := by
  induction b with
  | nil => exact Nat.one_pos
  | cons x rest ih =>
    have hx := x.isLt
    simp only [fromLe, List.length_cons, Nat.pow_succ]
    omega

/-- A `u16` field read from any offset is a `u16`. -/
theorem fromLe_slice_two_le (p : Bytes) (off : Nat) : fromLe (slice p off 2) ≤ 65535 := by
  have h := fromLe_lt (slice p off 2)
  have hlen : (slice p off 2).length ≤ 2 := by rw [length_slice]; exact Nat.min_le_left _ _
  have hpow : 256 ^ (slice p off 2).length ≤ 256 ^ 2 := Nat.pow_le_pow_right (by decide) hlen
  omega

/-- The lengths in a parsed record are those of its fields, which fill the body after its 12 fixed bytes (R160, R166). -/
theorem parseBody_lengths {p : Bytes} {r : Record} (h : parseBody p = some r) :
    r.topic.length = r.topicLen.toNat ∧ r.dataLen = BitVec.ofNat 32 r.data.length ∧
      12 + r.topic.length + r.data.length = p.length := by
  rcases parseBody_cases p with ⟨_, hn⟩ | ⟨_, _, hn⟩ | ⟨hle, r', hr, _, _, _, htl, ht, hdl, hd⟩
  · rw [hn] at h; cases h
  · rw [hn] at h; cases h
  · obtain rfl : r' = r := Option.some.inj (hr.symm.trans h)
    have hu16 := fromLe_slice_two_le p 10
    rw [htl, ht, hdl, hd, length_slice, List.length_drop, BitVec.toNat_ofNat]
    exact ⟨by omega, rfl, by omega⟩

/-! ### Operand memories -/

/-- `MemWrite` adds no address but those it writes. -/
theorem Memory.mem_writeAll_addr {m : Memory} {off : Nat} {bytes : Bytes} {c : Host.Cell}
    (h : c ∈ m.writeAll off bytes) : c ∈ m ∨ c.1 < off + bytes.length := by
  induction bytes generalizing m off with
  | nil => exact .inl h
  | cons b rest ih =>
    simp only [List.length_cons]
    rcases ih h with hc | hc
    · rcases Memory.mem_write_addr hc with rfl | hc
      · exact .inr (by simp only; omega)
      · exact .inl hc
    · exact .inr (by omega)

/-- Everything setting a length register can do (R44): nothing above the capacity; else the new length, with the memory as
it is or with the cells from the new length on forgotten. -/
theorem InBuf.setLen_cases (b : InBuf) (id : BufId) (cap : Option Nat) (k n : Nat) :
    (fits cap n = false ∧ b.setLen id cap k n = none) ∨
    (fits cap n = true ∧ ∃ m, b.setLen id cap k n = some { b with len := n, mem := m } ∧
      (m = b.mem ∨ m = b.mem.forget id k n)) := by
  unfold InBuf.setLen
  by_cases hf : fits cap n = true
  · refine .inr ⟨hf, ?_⟩
    by_cases hn : n < b.len
    · exact ⟨_, by simp [hf, hn], .inr rfl⟩
    · exact ⟨_, by simp [hf, hn], .inl rfl⟩
  · exact .inl ⟨by simpa using hf, by simp [hf]⟩

end Sys2Proof.Machine

namespace Sys2Proof.Safety

open Sys2Proof Sys2Proof.Machine

theorem BufInv.fresh (cap : Option Nat) (era : Nat) : BufInv cap (InBuf.fresh era) :=
  ⟨Memory.wf_nil, fits_zero cap, fun _ h => absurd h List.not_mem_nil⟩

/-- Setting a length register keeps the buffer's invariant. -/
theorem BufInv.setLen {b b' : InBuf} {id : BufId} {cap : Option Nat} {k n : Nat} (hb : BufInv cap b)
    (h : b.setLen id cap k n = some b') : BufInv cap b' := by
  obtain ⟨hwf, _, hcells⟩ := hb
  rcases b.setLen_cases id cap k n with ⟨_, hnone⟩ | ⟨hfit, m, hsome, hm⟩
  · rw [hnone] at h; cases h
  · obtain rfl := Option.some.inj (hsome.symm.trans h)
    rcases hm with rfl | rfl
    · exact ⟨hwf, hfit, hcells⟩
    · refine ⟨Memory.wf_forget hwf id k n, hfit, fun c hc => ?_⟩
      have haddr : c.1 ∈ (b.mem.forget id k n).map Prod.fst := List.mem_map_of_mem hc
      rw [Memory.forget_addr] at haddr
      obtain ⟨d, hd, hdc⟩ := List.mem_map.mp haddr
      exact hdc ▸ hcells d hd

/-- A `MemWrite` within the capacity keeps the buffer's invariant (R45). -/
theorem BufInv.writeAll {b : InBuf} {cap : Option Nat} {off : Nat} {bytes : Bytes} (hb : BufInv cap b)
    (hfit : fits cap (off + bytes.length) = true) : BufInv cap { b with mem := b.mem.writeAll off bytes } := by
  obtain ⟨hwf, hlen, hcells⟩ := hb
  refine ⟨Memory.wf_writeAll hwf off bytes, hlen, fun c hc => ?_⟩
  rcases Memory.mem_writeAll_addr hc with hm | hlt
  · exact hcells c hm
  · exact fits_of_le hfit hlt

/-! ### The accumulator and the running reader -/

theorem AccInv.nil (cap : Option Nat) : AccInv cap [] false := ⟨fits_zero cap, fun h => by cases h⟩

/-- One more byte is appended, or it is dropped because `ACC` is full (R148). -/
theorem AccInv.accept {cap : Option Nat} {r : Reading} (h : AccInv cap r.acc r.ovf) (b : Byte) :
    AccInv cap (r.accept cap b).acc (r.accept cap b).ovf := by
  obtain ⟨hfit, hfull⟩ := h
  unfold Reading.accept
  split
  · rename_i hroom
    refine ⟨by simpa using hroom, fun hovf => ?_⟩
    rw [hfull hovf] at hroom
    simp [fits] at hroom
  · rename_i hroom
    exact ⟨hfit, fun _ => eq_some_of_fits_of_not_fits_succ hfit hroom⟩

theorem AccInv.acceptAll {cap : Option Nat} {r : Reading} (h : AccInv cap r.acc r.ovf) (bytes : Bytes) :
    AccInv cap (r.acceptAll cap bytes).acc (r.acceptAll cap bytes).ovf := by
  induction bytes generalizing r with
  | nil => exact h
  | cons b rest ih => exact ih (h.accept b)

/-- The reading with which an iteration ends the burst is the one it began with. -/
theorem advance_finished {cap : Option Nat} {timeout : Ticks} {r r' : Reading} {e : LineEvent}
    (h : r.advance cap timeout e = .finished r') : r' = r := by
  rcases r.advance_cases cap timeout e with ⟨b, bytes, ha⟩ | ⟨n, ha⟩ | ha
  · rw [ha] at h; cases h
  · rw [ha] at h
    rcases r.wait_cases timeout n with ⟨_, hw⟩ | ⟨_, r'', hw, _⟩
    · rw [hw] at h; cases h; rfl
    · rw [hw] at h; cases h
  · rw [ha] at h; cases h

/-- The reader `r` runs lawfully in `s`: `ActivityInv`, whatever `s` is doing itself. -/
def ReaderInv (s : State) (r : Reading) : Prop := ActivityInv { s with activity := .reading r }

theorem ActivityInv.of_ready {s : State} (h : s.activity = .ready) : ActivityInv s := by
  unfold ActivityInv
  rw [h]
  trivial

theorem ActivityInv.readerInv {s : State} {r : Reading} (h : ActivityInv s) (hr : s.activity = .reading r) :
    ReaderInv s r := by
  unfold ActivityInv at h
  rw [hr] at h
  exact h

theorem ReaderInv.accInv {s : State} {r : Reading} (h : ReaderInv s r) : AccInv s.params.rxMax r.acc r.ovf := h.1

/-- A reader starts lawfully if, for POLL, there is no record and nobody has been invoked (R147, R186). -/
theorem ReaderInv.start {s : State} {forPoll : Bool} (h : forPoll = true → s.recValid = false ∧ s.dispatched = 0) :
    ReaderInv s (Reading.start forPoll) := ⟨AccInv.nil _, Nat.zero_le _, h⟩

/-- An iteration after which the reader goes on keeps it lawful: bytes clear the idle clock, a wait leaves it within the
timeout (R142, R145). -/
theorem ReaderInv.advance {s : State} {r r' : Reading} {e : LineEvent} (hr : ReaderInv s r)
    (h : r.advance s.params.rxMax s.idleTimeout e = .going r') : ReaderInv s r' := by
  obtain ⟨hacc, _, hpoll⟩ := hr
  rcases r.advance_cases s.params.rxMax s.idleTimeout e with ⟨b, bytes, ha⟩ | ⟨n, ha⟩ | ha
  · rw [ha] at h
    obtain rfl := ReadStep.going.inj h
    exact ⟨hacc.acceptAll (b :: bytes), Nat.zero_le _, fun hp => hpoll (by simpa using hp)⟩
  · rw [ha] at h
    rcases r.wait_cases s.idleTimeout n with ⟨_, hw⟩ | ⟨hle, r'', hw, hidle, hfp, hacc', hovf'⟩
    · rw [hw] at h; cases h
    · rw [hw] at h
      obtain rfl := ReadStep.going.inj h
      refine ⟨?_, ?_, fun hp => hpoll (hfp ▸ hp)⟩
      · rw [hacc', hovf']; exact hacc
      · rw [hidle]; exact hle
  · rw [ha] at h; cases h

/-! ### The record -/

theorem RecordInv.of_not_valid {s : State} (h : s.recValid = false) : RecordInv s :=
  fun hv => absurd (hv.symm.trans h) (by decide)

/-- A record parsed from `IN0`, or from `ACC` after its 4 header bytes, is within its buffers (R41, R43, R160, R188). -/
theorem RecordInv.setRecord {s : State} {p : Bytes} {r : Record} (hp : parseBody p = some r)
    (hin : fits s.params.frameMax p.length = true ∨ fits s.params.rxMax (4 + p.length) = true) :
    RecordInv (s.setRecord r) := by
  obtain ⟨htopic, hdata, hlen⟩ := parseBody_lengths hp
  have hu16 := r.topicLen.isLt
  refine fun _ => ⟨htopic, hdata, fits_dataCapacity (hin.imp (fits_of_le · ?_) (fits_of_le · ?_)),
    Params.fits_topicCapacity ?_ (hin.imp (fits_of_le · ?_) (fits_of_le · ?_))⟩ <;>
    simp only [State.setRecord_record] <;> omega

end Sys2Proof.Safety
end

section
/-! The invariant: it holds of every constructed block, and every operation of the machine keeps it, so every instruction and
every step does. -/

namespace Sys2Proof.Safety

open Sys2Proof Sys2Proof.Machine

/-! ### After construction -/

theorem Inv.construct (p : Params) (node : NodeId) (era : Nat) : Inv (State.construct p node era) :=
  ⟨.fresh _ _, .fresh _ _, .fresh _ _, fits_zero _, ⟨fits_zero _, .inl ⟨rfl, rfl⟩⟩, .nil _, trivial,
    ⟨List.nodup_nil, fits_zero _, fun _ h => absurd h List.not_mem_nil, Nat.two_pow_pos _⟩, .of_not_valid rfl,
    (by decide : (0 : Ticks) ≠ BitVec.allOnes Config.timeW)⟩

/-! ### The builders (R115 to R118) -/

section
variable {s : State}

theorem Inv.finish (h : Inv s) (st : Status) (info : Nat) : Inv (s.finish st info) := h

theorem Inv.assemble (h : Inv s) {type : Byte} {frame : Bytes} (hframe : ∃ body, frame = header type ++ body)
    (hfit : fits s.params.frameMax frame.length = true) : Inv (s.assemble frame) := by
  obtain ⟨h0, h1, h2, hout, _, hacc, hact, hreg, hrec, htime⟩ := h
  obtain ⟨body, rfl⟩ := hframe
  exact ⟨h0, h1, h2, hout, ⟨by simpa using hfit, .inr ⟨rfl, checksumHolds_finalizeFrame type body⟩⟩, hacc, hact, hreg,
    hrec, htime⟩

theorem Inv.transmit (h : Inv s) : Inv s.transmit := by
  have hdrop : Inv s.dropTxAnswer := by
    unfold State.dropTxAnswer
    split <;> exact h
  rw [State.transmit_eq]
  exact hdrop

theorem Inv.build (h : Inv s) {check : Option Nat} {type : Byte} {frame : Bytes}
    (hframe : ∃ body, frame = header type ++ body)
    (hfit : check = none → fits s.params.frameMax frame.length = true) : Inv (s.build check frame) := by
  rcases s.build_cases check frame with ⟨len, _, he⟩ | ⟨hnone, he⟩
  · rw [he]; exact h.finish _ _
  · rw [he]; exact (h.assemble hframe (hfit hnone)).transmit

theorem Inv.prepare (h : Inv s) {check : Option Nat} {type : Byte} {frame : Bytes}
    (hframe : ∃ body, frame = header type ++ body)
    (hfit : check = none → fits s.params.frameMax frame.length = true) : Inv (s.prepare check frame) := by
  rcases s.prepare_cases check frame with ⟨len, _, he⟩ | ⟨hnone, he⟩
  · rw [he]; exact h.finish _ _
  · rw [he]; exact h.assemble hframe (hfit hnone)

/-! ### The parser and the dispatcher

Only an idle block's: while POLL waits, the invariant has no record and `DISPATCHED` at 0. -/

theorem Inv.dropRecord (h : Inv s) (hready : s.activity = .ready) : Inv s.dropRecord := by
  obtain ⟨h0, h1, h2, hout, hfr, hacc, _, hreg, _, htime⟩ := h
  exact ⟨h0, h1, h2, hout, hfr, hacc, .of_ready hready, hreg, .of_not_valid rfl, htime⟩

theorem Inv.setRecord (h : Inv s) (hready : s.activity = .ready) {p : Bytes} {r : Record} (hp : parseBody p = some r)
    (hin : fits s.params.frameMax p.length = true ∨ fits s.params.rxMax (4 + p.length) = true) :
    Inv (s.setRecord r) := by
  obtain ⟨h0, h1, h2, hout, hfr, hacc, _, hreg, _, htime⟩ := h
  exact ⟨h0, h1, h2, hout, hfr, hacc, .of_ready hready, hreg, .setRecord hp hin, htime⟩

theorem Inv.setDispatched (h : Inv s) (hready : s.activity = .ready) (n : Word) : Inv { s with dispatched := n } := by
  obtain ⟨h0, h1, h2, hout, hfr, hacc, _, hreg, hrec, htime⟩ := h
  exact ⟨h0, h1, h2, hout, hfr, hacc, .of_ready hready, hreg, hrec, htime⟩

theorem Inv.dispatchAll (h : Inv s) (hready : s.activity = .ready) : Inv s.dispatchAll := by
  obtain ⟨items, codes, cons, fr, he, -⟩ := s.dispatchAll_spec
  rw [he]
  exact h.setDispatched hready _

theorem Inv.storeParse (h : Inv s) (hready : s.activity = .ready) {p : Bytes}
    (hin : fits s.params.frameMax p.length = true ∨ fits s.params.rxMax (4 + p.length) = true) :
    Inv (s.storeParse p) := by
  rcases s.storeParse_cases p with ⟨_, he⟩ | ⟨r, hp, he⟩
  · rw [he]; exact h.dropRecord hready
  · rw [he]; exact h.setRecord hready hp hin

/-- POLL's record comes from `ACC` after its header, which is within `RX_MAX` (R188). -/
theorem Inv.handleBurst (h : Inv s) (hready : s.activity = .ready) : Inv s.handleBurst := by
  rcases s.handleBurst_cases with ⟨_, he⟩ | ⟨_, _, _, _, he⟩ | ⟨_, hlen, _, r, hp, he⟩
  · rw [he]; exact h
  · rw [he]; exact h.dropRecord hready
  · rw [he]
    obtain ⟨-, -, -, -, -, ⟨hacc, -⟩, -⟩ := id h
    have hin : fits s.params.rxMax (4 + (s.acc.drop 4).length) = true := by
      rw [List.length_drop, Nat.add_sub_cancel' hlen]
      exact hacc
    exact (h.setRecord hready hp (.inr hin)).dispatchAll hready

/-! ### The link reader -/

theorem Inv.endReading (h : Inv s) {r : Reading} (hr : AccInv s.params.rxMax r.acc r.ovf) : Inv (s.endReading r) := by
  obtain ⟨h0, h1, h2, hout, hfr, _, _, hreg, hrec, htime⟩ := h
  have hburst : Inv { s with acc := r.acc, rxOvf := r.ovf, activity := .ready } :=
    ⟨h0, h1, h2, hout, hfr, hr, trivial, hreg, hrec, htime⟩
  unfold State.endReading
  split
  · exact hburst.handleBurst rfl
  · exact hburst

theorem Inv.failReading (h : Inv s) : Inv s.failReading := by
  obtain ⟨h0, h1, h2, hout, hfr, _, _, hreg, hrec, htime⟩ := h
  exact ⟨h0, h1, h2, hout, hfr, .nil _, trivial, hreg, hrec, htime⟩

theorem Inv.setReading (h : Inv s) {r : Reading} (hr : ReaderInv s r) : Inv { s with activity := .reading r } := by
  obtain ⟨h0, h1, h2, hout, hfr, hacc, _, hreg, hrec, htime⟩ := h
  exact ⟨h0, h1, h2, hout, hfr, hacc, hr, hreg, hrec, htime⟩

theorem Inv.readerStep (h : Inv s) {r : Reading} (hr : ReaderInv s r) (e : LineEvent) : Inv (s.readerStep r e) := by
  unfold State.readerStep
  split
  · rename_i r' ha
    exact h.setReading (hr.advance ha)
  · rename_i r' ha
    obtain rfl := advance_finished ha
    exact h.endReading hr.accInv
  · exact h.failReading

theorem Inv.drain (h : Inv s) {r : Reading} (hr : ReaderInv s r) (inputs : List Input) : Inv (s.drain r inputs) := by
  obtain ⟨rest, _, hcases⟩ := s.drain_cases (ReaderInv s) (fun _ _ _ hr ha => hr.advance ha)
    (fun _ _ _ hr ha => advance_finished ha ▸ hr) inputs r hr
  have hrest : Inv { s with inputs := rest } := h
  rcases hcases with ⟨r', hr', he⟩ | ⟨r', hr', he⟩ | he
  · rw [he]; exact hrest.setReading hr'
  · rw [he]; exact hrest.endReading hr'.accInv
  · rw [he]; exact hrest.failReading

theorem Inv.startPoll (h : Inv s) (hready : s.activity = .ready) : Inv s.startPoll :=
  (h.dropRecord hready).setDispatched hready 0

/-! ### The instructions -/

/-- REGISTER appends a handle that is new, `CB_W` bits wide and within the capacity (R177). -/
theorem Inv.execRegister (h : Inv s) : ∃ t, execRegister s = .next t ∧ Inv t := by
  rcases execRegister_cases s with ⟨_, he⟩ | ⟨_, _, he⟩ | ⟨hnew, hroom, he⟩
  · exact ⟨_, he, h⟩
  · exact ⟨_, he, h⟩
  · obtain ⟨h0, h1, h2, hout, hfr, hacc, hact, ⟨hnodup, hfit, hwidth, hhandle⟩, hrec, htime⟩ := h
    refine ⟨_, he, h0, h1, h2, hout, hfr, hacc, hact, ⟨?_, ?_, ?_, hhandle⟩, hrec, htime⟩
    · exact List.nodup_append.mpr ⟨hnodup, List.nodup_singleton _, by simpa using fun a ha => ne_of_mem_of_not_mem ha hnew⟩
    · by_contra hfull
      exact hroom (eq_some_of_fits_of_not_fits_succ hfit (by simpa using hfull))
    · simpa [or_imp, forall_and] using ⟨hwidth, hhandle⟩

/-- `OUT` holds the stuffed form of `IN0`, which is within `FRAME_MAX` (R100, R105). -/
theorem Inv.setOut_stuff (h : Inv s) : Inv { s with out := stuff s.in0Bytes } := by
  obtain ⟨⟨hwf, hlen, hcells⟩, h1, h2, _, hfr, hacc, hact, hreg, hrec, htime⟩ := h
  exact ⟨⟨hwf, hlen, hcells⟩, h1, h2, fits_stuff (by simpa using hlen), hfr, hacc, hact, hreg, hrec, htime⟩

theorem Inv.fits_in0Bytes (h : Inv s) : fits s.params.frameMax s.in0Bytes.length = true := by
  obtain ⟨⟨_, hlen, _⟩, _⟩ := h
  simpa using hlen

/-- Every instruction, run by an idle block, keeps the invariant. -/
theorem Inv.exec (h : Inv s) (hready : s.activity = .ready) (i : Instr) : ∃ t, exec i s = .next t ∧ Inv t := by
  cases i with
  | checksum => exact ⟨_, rfl, h⟩
  | stuff => exact ⟨_, rfl, h.setOut_stuff⟩
  | buildSubscribe =>
    exact ⟨_, rfl, h.build (subscribeFrame_header _) fun hc => fits_of_subscribeCheck (by simpa using hc)⟩
  | buildPublishRaw =>
    exact ⟨_, rfl, h.build (rawFrame_header _ _ _ _) fun hc => fits_of_rawCheck (by simpa using hc)⟩
  | buildPublishLog =>
    exact ⟨_, rfl, h.build (logFrame_header _ _ _ _) fun hc => fits_of_logCheck (by simpa using hc)⟩
  | buildPublishPrint =>
    exact ⟨_, rfl, h.build (printFrame_header _ _ _) fun hc => fits_of_printCheck (by simpa using hc)⟩
  | readBurst => exact ⟨_, rfl, h.drain (.start fun hp => by cases hp) _⟩
  | parsePublish => exact ⟨_, rfl, h.storeParse hready (.inl h.fits_in0Bytes)⟩
  | register => exact h.execRegister
  | dispatch =>
    refine ⟨_, rfl, ?_⟩
    split
    · exact h.dispatchAll hready
    · exact h.setDispatched hready 0
  | poll => exact ⟨_, rfl, (h.startPoll hready).drain (.start fun _ => ⟨rfl, rfl⟩) _⟩
  | frameSubscribe topic => exact ⟨_, rfl, h.prepare (subscribeFrame_header _) fits_of_subscribeCheck⟩
  | framePublishRaw node topic version data => exact ⟨_, rfl, h.prepare (rawFrame_header _ _ _ _) fits_of_rawCheck⟩
  | framePublishLog node topic filename text => exact ⟨_, rfl, h.prepare (logFrame_header _ _ _ _) fits_of_logCheck⟩
  | framePublishPrint node topic text => exact ⟨_, rfl, h.prepare (printFrame_header _ _ _) fits_of_printCheck⟩
  | framePublishInbound reserved ck node type version topic data =>
    exact ⟨_, rfl, (h.startPoll hready).endReading ((AccInv.nil _).acceptAll (r := Reading.start true) _)⟩

/-! ### The host -/

theorem Inv.operandBuf (h : Inv s) (id : BufId) : BufInv s.params.frameMax (operandBuf s id) := by
  obtain ⟨h0, h1, h2, _⟩ := h
  unfold Safety.operandBuf
  split <;> assumption

theorem Inv.withOperandBuf (h : Inv s) (id : BufId) {b : InBuf} (hb : BufInv s.params.frameMax b) :
    Inv (withOperandBuf s id b) := by
  obtain ⟨h0, h1, h2, hrest⟩ := h
  unfold Safety.withOperandBuf
  split
  · exact ⟨h0, hb, h2, hrest⟩
  · exact ⟨h0, h1, hb, hrest⟩
  · exact ⟨hb, h1, h2, hrest⟩

theorem Inv.writeReg (h : Inv s) (hready : s.activity = .ready) (r : Reg) (v : Nat) : Inv (s.writeReg r v) := by
  rcases s.writeReg_cases r v with he | ⟨x, he⟩ | ⟨x, he⟩ | ⟨x, hx, he⟩ | ⟨x, hx, he⟩ | ⟨id, b, k, n, hset, he⟩
  · rw [he]; exact h
  · rw [he]; exact h
  · rw [he]; exact h
  · rw [he]
    obtain ⟨h0, h1, h2, hout, hfr, hacc, hact, ⟨hnodup, hfit, hwidth, _⟩, hrec, htime⟩ := h
    exact ⟨h0, h1, h2, hout, hfr, hacc, hact, ⟨hnodup, hfit, hwidth, hx⟩, hrec, htime⟩
  · rw [he]
    obtain ⟨h0, h1, h2, hout, hfr, hacc, _, hreg, hrec, _⟩ := h
    exact ⟨h0, h1, h2, hout, hfr, hacc, .of_ready hready, hreg, hrec, hx⟩
  · rw [he]
    exact h.withOperandBuf id ((h.operandBuf id).setLen hset)

theorem Inv.hostWrite (h : Inv s) (r : Reg) (v : Nat) : Inv (s.hostWrite r v) := by
  cases hb : s.busy with
  | true => rw [State.hostWrite_busy hb]; exact h
  | false => rw [State.hostWrite_idle hb]; exact h.writeReg (s.busy_eq_false_iff.mp hb) r v

theorem Inv.hostWriteBuf (h : Inv s) {id : BufId} {off : Nat} {bytes : Bytes} {t : State}
    (ht : s.hostWriteBuf id off bytes = .next t) : Inv t := by
  rcases State.hostWriteBuf_next ht with rfl | ⟨hfit, rfl⟩
  · exact h
  · exact h.withOperandBuf id ((h.operandBuf id).writeAll hfit)

/-! ### The line -/

theorem Inv.lineEvent (h : Inv s) (e : LineEvent) : Inv (s.lineEvent e) := by
  obtain ⟨-, -, -, -, -, -, hact, -⟩ := id h
  unfold State.lineEvent
  split
  · exact h
  · rename_i r hr
    exact h.readerStep (hact.readerInv hr) e

theorem Inv.quiet (h : Inv s) : Inv s.quiet := by
  rcases State.quiet_cases s with he | ⟨fr, e, he⟩
  · rw [he]; exact h
  · rw [he]
    have hfree : Inv { s with free := fr } := h
    exact hfree.lineEvent e

end

/-! ### Every step -/

theorem Inv.step {s t : State} (h : Inv s) (ht : step s = .next t) : Inv t := by
  have hnext : ∀ u, Machine.step s = .next u → Inv u → Inv t := fun u he hu =>
    Host.Outcome.next.inj (he.symm.trans ht) ▸ hu
  have hinv : ∀ rest, Inv { s with inputs := rest } := fun _ => h
  rcases step_cases s with ⟨_, he⟩ | ⟨e, rest, _, he⟩ | ⟨v, rest, _, _, he⟩ | ⟨v, rest, i, _, hb, _, he⟩ |
    ⟨v, rest, err, _, _, _, he⟩ | ⟨r, v, rest, _, _, he⟩ | ⟨r, rest, _, he⟩ | ⟨id, off, b, rest, _, he⟩ |
    ⟨id, off, n, rest, _, he⟩ | ⟨k, rest, _, he⟩ | ⟨node, rest, _, he⟩
  · exact hnext _ he h.quiet
  · exact hnext _ he ((hinv rest).lineEvent e)
  · exact hnext _ he h
  · have hcmd : Inv { s with inputs := rest, cmd := BitVec.ofNat 8 v, reply := .done } := h
    obtain ⟨u, hu, hinvu⟩ := hcmd.exec (s.busy_eq_false_iff.mp hb) i
    exact hnext u (he.trans hu) hinvu
  · exact hnext _ he h
  · exact hnext _ he ((hinv rest).hostWrite r v)
  · exact hnext _ he h
  · exact (hinv rest).hostWriteBuf (he.symm.trans ht)
  · exact hnext _ he h
  · exact hnext _ he h
  · exact hnext _ he (Inv.construct s.params node (s.free.cell + 1))

/-- Settles O54: the invariant holds of the block constructed with any parameters, the open ones among them. -/
theorem resetMeetsInvariant : Obligations.ResetMeetsInvariant := ⟨Inv.construct _ _ _, Inv.construct⟩

/-- Settles O55, by the operations of the machine: each keeps the invariant, so each instruction and each access does. -/
theorem stepKeepsInvariant : Obligations.StepKeepsInvariant := fun _ _ h ht => h.step ht

end Sys2Proof.Safety
end

section
/-! What outlives every step but a reset: the parameters, `NODE_ID`, the registry unless REGISTER runs, and the two
histories, which only grow (R12, R20, R31). -/

namespace Sys2Proof.Machine

open Sys2Proof Sys2Proof.Safety

/-- `t` goes on from `s`: the same construction and the same registry, and nothing taken out of the histories. -/
structure Continues (s t : State) : Prop where
  params : t.params = s.params
  nodeId : t.nodeId = s.nodeId
  regy : t.regy = s.regy
  txTrace : s.txTrace <+: t.txTrace
  cbTrace : s.cbTrace <+: t.cbTrace

namespace Continues

/-- An update of other fields only. -/
theorem of_same {s t : State} (hp : t.params = s.params := by rfl) (hn : t.nodeId = s.nodeId := by rfl)
    (hr : t.regy = s.regy := by rfl) (ht : t.txTrace = s.txTrace := by rfl) (hc : t.cbTrace = s.cbTrace := by rfl) :
    Continues s t :=
  ⟨hp, hn, hr, ht ▸ List.prefix_rfl, hc ▸ List.prefix_rfl⟩

theorem refl (s : State) : Continues s s := of_same

theorem trans {s t u : State} (h : Continues s t) (h' : Continues t u) : Continues s u :=
  ⟨h'.params.trans h.params, h'.nodeId.trans h.nodeId, h'.regy.trans h.regy, h.txTrace.trans h'.txTrace,
    h.cbTrace.trans h'.cbTrace⟩

/-! ### The shared operations -/

theorem transmit (s : State) : Continues s s.transmit := by
  rw [State.transmit_eq]
  exact ⟨by simp, by simp, by simp, List.prefix_append _ _, by simp⟩

theorem build (s : State) (check : Option Nat) (frame : Bytes) : Continues s (s.build check frame) := by
  rcases s.build_cases check frame with ⟨len, _, he⟩ | ⟨_, he⟩
  · rw [he]; exact of_same
  · rw [he]; exact (of_same : Continues s (s.assemble frame)).trans (transmit _)

theorem prepare (s : State) (check : Option Nat) (frame : Bytes) : Continues s (s.prepare check frame) := by
  rcases s.prepare_cases check frame with ⟨len, _, he⟩ | ⟨_, he⟩ <;> rw [he] <;> exact of_same

theorem storeParse (s : State) (p : Bytes) : Continues s (s.storeParse p) := by
  rcases s.storeParse_cases p with ⟨_, he⟩ | ⟨r, _, he⟩ <;> rw [he] <;> exact of_same

theorem dispatchAll (s : State) : Continues s s.dispatchAll := by
  obtain ⟨items, codes, cons, fr, he, -⟩ := s.dispatchAll_spec
  rw [he]
  exact ⟨rfl, rfl, rfl, List.prefix_rfl, List.prefix_append _ _⟩

theorem finish (s : State) (st : Status) (info : Nat) : Continues s (s.finish st info) := of_same

theorem handleBurst (s : State) : Continues s s.handleBurst := by
  rcases s.handleBurst_cases with ⟨_, he⟩ | ⟨_, _, _, _, he⟩ | ⟨_, _, _, r, _, he⟩
  · rw [he]; exact finish s _ _
  · rw [he]; exact of_same
  · have hrec : Continues s (s.setRecord r) := of_same
    rw [he]; exact (hrec.trans (dispatchAll _)).trans (finish _ _ _)

theorem endReading (s : State) (r : Reading) : Continues s (s.endReading r) := by
  have hburst : Continues s { s with acc := r.acc, rxOvf := r.ovf, activity := .ready } := of_same
  unfold State.endReading
  split
  · exact hburst.trans (handleBurst _)
  · exact hburst.trans (finish _ _ _)

theorem failReading (s : State) : Continues s s.failReading := of_same

theorem readerStep (s : State) (r : Reading) (e : LineEvent) : Continues s (s.readerStep r e) := by
  unfold State.readerStep
  split
  · exact of_same
  · exact endReading s _
  · exact failReading s

theorem drain (s : State) (r : Reading) (inputs : List Input) : Continues s (s.drain r inputs) := by
  obtain ⟨rest, _, hcases⟩ := s.drain_cases (fun _ => True) (fun _ _ _ _ _ => trivial) (fun _ _ _ _ _ => trivial)
    inputs r trivial
  have hrest : Continues s { s with inputs := rest } := of_same
  rcases hcases with ⟨r', _, he⟩ | ⟨r', _, he⟩ | he
  · rw [he]; exact of_same
  · rw [he]; exact hrest.trans (endReading _ r')
  · rw [he]; exact hrest.trans (failReading _)

theorem startPoll (s : State) : Continues s s.startPoll := of_same

/-! ### The instructions -/

/-- Every instruction but REGISTER completes and goes on from where it began. -/
theorem exec {i : Instr} (hi : i ≠ .register) (s : State) : ∃ t, exec i s = .next t ∧ Continues s t := by
  cases i with
  | checksum => exact ⟨_, rfl, of_same⟩
  | stuff => exact ⟨_, rfl, of_same⟩
  | buildSubscribe | buildPublishRaw | buildPublishLog | buildPublishPrint => exact ⟨_, rfl, build s _ _⟩
  | readBurst => exact ⟨_, rfl, drain s _ _⟩
  | parsePublish => exact ⟨_, rfl, (storeParse s _).trans (finish _ _ _)⟩
  | register => exact absurd rfl hi
  | dispatch =>
    refine ⟨_, rfl, ?_⟩
    split
    · exact (dispatchAll s).trans (finish _ _ _)
    · exact of_same
  | poll => exact ⟨_, rfl, (startPoll s).trans (drain _ _ _)⟩
  | frameSubscribe topic => exact ⟨_, rfl, prepare s _ _⟩
  | framePublishRaw node topic version data => exact ⟨_, rfl, prepare s _ _⟩
  | framePublishLog node topic filename text => exact ⟨_, rfl, prepare s _ _⟩
  | framePublishPrint node topic text => exact ⟨_, rfl, prepare s _ _⟩
  | framePublishInbound reserved ck node type version topic data =>
    exact ⟨_, rfl, (startPoll s).trans (endReading _ _)⟩

/-! ### The host and the line -/

theorem declined (s : State) : Continues s s.declined := of_same

theorem withOperandBuf (s : State) (id : BufId) (b : InBuf) : Continues s (withOperandBuf s id b) := by
  unfold Safety.withOperandBuf
  split <;> exact of_same

/-- The reply and the count of free values are no part of what a state goes on from. -/
theorem withReply {s t : State} (h : Continues s t) (reply : HostReply) (fr : FreeCount) :
    Continues s { t with reply := reply, free := fr } := h.trans of_same

theorem hostWrite (s : State) (r : Reg) (v : Nat) : Continues s (s.hostWrite r v) := by
  cases hb : s.busy with
  | true => rw [State.hostWrite_busy hb]; exact declined s
  | false =>
    rw [State.hostWrite_idle hb]
    rcases s.writeReg_cases r v with he | ⟨x, he⟩ | ⟨x, he⟩ | ⟨x, _, he⟩ | ⟨x, _, he⟩ | ⟨id, b, k, n, _, he⟩ <;> rw [he]
    · exact declined s
    · exact of_same
    · exact of_same
    · exact of_same
    · exact of_same
    · exact (withOperandBuf s id b).withReply _ _

theorem hostWriteBuf {s t : State} {id : BufId} {off : Nat} {bytes : Bytes}
    (h : s.hostWriteBuf id off bytes = .next t) : Continues s t := by
  rcases State.hostWriteBuf_next h with rfl | ⟨_, rfl⟩
  · exact declined s
  · exact (withOperandBuf s id _).withReply _ _

theorem lineEvent (s : State) (e : LineEvent) : Continues s (s.lineEvent e) := by
  unfold State.lineEvent
  split
  · exact refl s
  · exact readerStep s _ e

theorem quiet (s : State) : Continues s s.quiet := by
  rcases s.quiet_cases with he | ⟨fr, e, he⟩ <;> rw [he]
  · exact refl s
  · exact (of_same : Continues s { s with free := fr }).trans (lineEvent _ e)

end Continues

/-! ### Every step -/

/-- What a step does to the registry, the node identity and the histories: it goes on from them, or it is a REGISTER that
appends a new handle and changes none of the others, or a reset. -/
theorem step_continues_cases {s t : State} (ht : step s = .next t) :
    Continues s t ∨
    (∃ v rest, s.busy = false ∧ s.inputs = .host (.write .cmd v) :: rest ∧
      decodeCommand (BitVec.ofNat 8 v) = .ok .register ∧ s.handle ∉ s.regy ∧ t.regy = s.regy ++ [s.handle] ∧
      Continues { s with regy := s.regy ++ [s.handle] } t) ∨
    ∃ node rest, s.inputs = .host (.reset node) :: rest ∧ t.regy = [] := by
  have hnext : ∀ u, step s = .next u → Continues s u → Continues s t := fun u he hu =>
    Host.Outcome.next.inj (he.symm.trans ht) ▸ hu
  have hinputs : ∀ rest, Continues s { s with inputs := rest } := fun _ => .of_same
  rcases step_cases s with ⟨_, he⟩ | ⟨e, rest, _, he⟩ | ⟨v, rest, _, _, he⟩ | ⟨v, rest, i, hin, hb, hd, he⟩ |
    ⟨v, rest, err, _, _, _, he⟩ | ⟨r, v, rest, _, _, he⟩ | ⟨r, rest, _, he⟩ | ⟨id, off, b, rest, _, he⟩ |
    ⟨id, off, n, rest, _, he⟩ | ⟨k, rest, _, he⟩ | ⟨node, rest, hin, he⟩
  · exact .inl (hnext _ he (.quiet s))
  · exact .inl (hnext _ he ((hinputs rest).trans (.lineEvent _ e)))
  · exact .inl (hnext _ he .of_same)
  · have hcmd : Continues s { s with inputs := rest, cmd := BitVec.ofNat 8 v, reply := .done } :=
      .of_same
    by_cases hi : i = .register
    · subst hi
      rcases execRegister_cases { s with inputs := rest, cmd := BitVec.ofNat 8 v, reply := .done } with
        ⟨_, hr⟩ | ⟨_, _, hr⟩ | ⟨hnew, _, hr⟩
      · exact .inl (hnext _ (he.trans hr) .of_same)
      · exact .inl (hnext _ (he.trans hr) .of_same)
      · obtain rfl := Host.Outcome.next.inj ((he.trans hr).symm.trans ht)
        exact .inr (.inl ⟨v, rest, hb, hin, hd, hnew, rfl, .of_same⟩)
    · obtain ⟨u, hu, hcont⟩ := Continues.exec hi { s with inputs := rest, cmd := BitVec.ofNat 8 v, reply := .done }
      exact .inl (hnext u (he.trans hu) (hcmd.trans hcont))
  · exact .inl (hnext _ he .of_same)
  · exact .inl (hnext _ he ((hinputs rest).trans (.hostWrite _ r v)))
  · exact .inl (hnext _ he .of_same)
  · exact .inl ((hinputs rest).trans (.hostWriteBuf (he.symm.trans ht)))
  · exact .inl (hnext _ he .of_same)
  · exact .inl (hnext _ he .of_same)
  · obtain rfl := Host.Outcome.next.inj (he.symm.trans ht)
    exact .inr (.inr ⟨node, rest, hin, rfl⟩)

/-- Settles O31, from the three things a step can do to the registry. -/
theorem registryOnlyGrows : Obligations.RegistryOnlyGrows := by
  refine ⟨fun s t ht => ?_, fun i s hi => ?_⟩
  · rcases step_continues_cases ht with hc | ⟨v, rest, hb, hin, hd, hnew, hregy, _⟩ | ⟨node, rest, hin, hregy⟩
    · exact .inl hc.regy
    · exact .inr (.inl ⟨v, rest, hb, hin, hd, hnew, hregy⟩)
    · exact .inr (.inr ⟨node, rest, hin, hregy⟩)
  · obtain ⟨t, he, hc⟩ := Continues.exec hi s
    exact ⟨t, he, hc.regy⟩

/-- Settles O56: neither a step that goes on nor a REGISTER writes `NODE_ID`. -/
theorem nodeIdIsFixed : Obligations.NodeIdIsFixed := by
  intro s t ht
  rcases step_continues_cases ht with hc | ⟨_, _, _, _, _, _, _, hc⟩ | ⟨node, rest, hin, _⟩
  · exact .inl hc.nodeId
  · exact .inl hc.nodeId
  · exact .inr ⟨node, rest, hin⟩

/-- Settles O59: a step that goes on extends the histories, and a REGISTER leaves them. -/
theorem tracesOnlyGrow : Obligations.TracesOnlyGrow := by
  intro s t ht
  rcases step_continues_cases ht with hc | ⟨_, _, _, _, _, _, _, hc⟩ | ⟨node, rest, hin, _⟩
  · exact .inl ⟨hc.txTrace, hc.cbTrace⟩
  · exact .inl ⟨hc.txTrace, hc.cbTrace⟩
  · exact .inr ⟨node, rest, hin⟩

end Sys2Proof.Machine
end

section
/-! The host's port: what a host access does to an idle and to a busy block, and the values after reset. -/

namespace Sys2Proof.Machine

open Sys2Proof Sys2Proof.Safety

/-! ### What an operand buffer reads after a write (R33, R45) -/

/-- Forgetting the bytes from an offset on leaves those before it. -/
theorem Memory.read?_forget_below (m : Memory) (id : BufId) (k n : Nat) {a : Nat} (h : a < n) :
    (m.forget id k n).read? a = m.read? a := by
  induction m with
  | nil => rfl
  | cons c rest ih =>
    simp only [Memory.forget, List.map_cons] at ih ⊢
    by_cases hc : n ≤ c.1
    · have hne : c.1 ≠ a := by omega
      simp only [hc, if_true, Memory.read?, hne, if_false, ih]
    · simp only [hc, if_false, Memory.read?, ih]

/-- Setting a length register keeps the bytes below the new length. -/
theorem InBuf.byteAt_setLen {b b' : InBuf} {id : BufId} {cap : Option Nat} {k n : Nat}
    (h : b.setLen id cap k n = some b') {a : Nat} (ha : a < n) : b'.byteAt id a = b.byteAt id a := by
  rcases b.setLen_cases id cap k n with ⟨_, hnone⟩ | ⟨_, m, hsome, hm⟩
  · rw [hnone] at h; cases h
  · obtain rfl := Option.some.inj (hsome.symm.trans h)
    rcases hm with rfl | rfl
    · rfl
    · simp only [InBuf.byteAt, Memory.read?_forget_below _ _ _ _ ha]

/-- A `MemWrite` stores its bytes. -/
theorem InBuf.byteAt_writeAll_inside (b : InBuf) (id : BufId) (off : Nat) (bytes : Bytes) {k : Nat}
    (h : k < bytes.length) :
    InBuf.byteAt { b with mem := b.mem.writeAll off bytes } id (off + k) = bytes[k] := by
  simp only [InBuf.byteAt, Memory.read?_writeAll_inside _ _ _ h, Option.getD_some]

/-- A `MemWrite` leaves every other offset. -/
theorem InBuf.byteAt_writeAll_other (b : InBuf) (id : BufId) {off a : Nat} (bytes : Bytes)
    (h : a < off ∨ off + bytes.length ≤ a) :
    InBuf.byteAt { b with mem := b.mem.writeAll off bytes } id a = b.byteAt id a := by
  rcases h with h | h
  · simp only [InBuf.byteAt, Memory.read?_writeAll_before _ _ h]
  · simp only [InBuf.byteAt, Memory.read?_writeAll_after _ _ h]

/-- The content a statement lists with a buffer is the buffer's. -/
theorem State.buffer_of_mem (s : State) {id : BufId} {content : Bytes}
    (h : (id, content) ∈ (.in0, s.in0Bytes) :: (.in1, s.in1Bytes) :: (.in2, s.in2Bytes) :: resultBufs s) :
    s.buffer id = content := by
  simp only [resultBufs, List.mem_cons, Prod.mk.injEq, List.not_mem_nil, or_false] at h
  rcases h with ⟨rfl, rfl⟩ | ⟨rfl, rfl⟩ | ⟨rfl, rfl⟩ | ⟨rfl, rfl⟩ | ⟨rfl, rfl⟩ | ⟨rfl, rfl⟩ | ⟨rfl, rfl⟩ | ⟨rfl, rfl⟩ |
    ⟨rfl, rfl⟩ <;> rfl

theorem ne_cmd_of_mem_readOnly {r : Reg} (h : r ∈ readOnly) : r ≠ .cmd := by
  rintro rfl
  exact absurd h (by decide)

theorem ne_cmd_of_mem_operandBufs {x : BufId × Reg} (h : x ∈ operandBufs) : x.2 ≠ .cmd := by
  have hall : ∀ y ∈ operandBufs, y.2 ≠ Reg.cmd := by decide
  exact hall x h

theorem State.withOperandBuf_inputs (s : State) (rest : List Input) (id : BufId) (b : InBuf) :
    withOperandBuf { s with inputs := rest } id b = { withOperandBuf s id b with inputs := rest } := by
  unfold withOperandBuf
  split <;> rfl

theorem State.operandBuf_inputs (s : State) (rest : List Input) (id : BufId) :
    operandBuf { s with inputs := rest } id = operandBuf s id := by
  unfold operandBuf
  split <;> rfl

theorem State.regValue_inputs (s : State) (rest : List Input) (r : Reg) :
    ({ s with inputs := rest } : State).regValue r = s.regValue r := by
  cases r <;> rfl

/-- A record register answers its value while there is a record, and no value otherwise (R33). -/
theorem State.readReply_recordValue (s : State) (v : Nat) :
    readReply (s.recordValue v) = if s.recValid then .value v else .noValue := by
  cases hv : s.recValid <;> simp [State.recordValue, readReply, hv]

/-- A number that fits the 32-bit register is shown whole. -/
theorem shown_toNat (v : Word) : shown v.toNat = v.toNat := by simp [shown]

/-- The one value `IDLE_TIMEOUT` refuses is its largest (R18). -/
theorem eq_allOnes_iff (v : Ticks) : v = BitVec.allOnes Config.timeW ↔ v.toNat = 2 ^ Config.timeW - 1 := by
  rw [← BitVec.toNat_inj, BitVec.toNat_allOnes]

/-! ### A write of `CMD` -/

/-- Settles O45: the write of `CMD` fetches the command, which is then executed. -/
theorem stepRunsDecodedCommand : Obligations.StepRunsDecodedCommand := by
  intro s v rest i hb hin hd
  exact step_of_fetch_command ((State.fetch_host hin).trans (State.start_idle hb hd))

/-! ### A busy block -/

/-- Settles O47, access by access. -/
theorem busyBlockIsNotDisturbed : Obligations.BusyBlockIsNotDisturbed := by
  intro s rest hb
  have hb' : ({ s with inputs := rest } : State).busy = true := hb
  refine ⟨fun v hin => ?_, fun r v hr hin => ?_, fun id off b hin => ?_, fun r hr hin => ?_, fun id off n hin => ?_,
    fun k hin => ?_, fun hin => ?_⟩
  · exact step_of_fetch_over ((State.fetch_host hin).trans (State.start_busy hb' _))
  · rw [step_write hr hin, State.hostWrite_busy hb']; rfl
  · rw [step_writeBuf hin, State.hostWriteBuf_busy hb']; rfl
  · rw [step_read hin, State.hostRead_busy hb' hr]
  · rw [step_readBuf hin, State.hostReadBuf_busy hb']
  · rw [step_readEntry hin, State.hostReadEntry_busy hb']
  · rw [step_read hin, State.hostRead_flags, hb']; rfl

/-! ### An idle block -/

section
variable {s : State} {rest : List Input}

/-- A register write that the idle block performs or ignores. -/
theorem step_write_idle (hb : s.busy = false) {r : Reg} {v : Nat} (hr : r ≠ .cmd)
    (h : s.inputs = .host (.write r v) :: rest) : step s = .next ({ s with inputs := rest }.writeReg r v) := by
  have hb' : ({ s with inputs := rest } : State).busy = false := hb
  rw [step_write hr h, State.hostWrite_idle hb']

theorem step_read_idle (hb : s.busy = false) {r : Reg} (h : s.inputs = .host (.read r) :: rest) :
    step s = .next { s with inputs := rest, reply := readReply (s.regValue r) } := by
  have hb' : ({ s with inputs := rest } : State).busy = false := hb
  rw [step_read h, State.hostRead_idle hb', State.regValue_inputs]

/-- A read of a register that a list names with its value. -/
theorem step_read_listed (hb : s.busy = false) {shows : Nat → Option Nat} {l : List (Reg × Nat)}
    (hl : ∀ x ∈ l, s.regValue x.1 = shows x.2) {r : Reg} {v : Nat} (hmem : (r, v) ∈ l)
    (h : s.inputs = .host (.read r) :: rest) : step s = .next { s with inputs := rest, reply := readReply (shows v) } := by
  rw [step_read_idle hb h, hl _ hmem]

/-- A length register takes a length within the capacity, and keeps the bytes below it (R44). -/
theorem step_write_len (hb : s.busy = false) {x : BufId × Reg} (hx : x ∈ operandBufs) {v : Word}
    (hfit : fits s.params.frameMax v.toNat = true) (h : s.inputs = .host (.write x.2 v.toNat) :: rest) :
    ∃ b : InBuf,
      step s = .next { withOperandBuf s x.1 b with
        inputs := rest, reply := .done, free := { s.free with cell := s.free.cell + 1 } } ∧
      b = { operandBuf s x.1 with len := v.toNat, mem := b.mem } ∧
      ∀ k, k < v.toNat → b.byteAt x.1 k = (operandBuf s x.1).byteAt x.1 k := by
  rcases (operandBuf s x.1).setLen_cases x.1 s.params.frameMax s.free.cell v.toNat with ⟨hno, _⟩ | ⟨_, m, hset, _⟩
  · rw [hno] at hfit; cases hfit
  · refine ⟨_, ?_, rfl, fun k hk => InBuf.byteAt_setLen hset hk⟩
    have hset' : (operandBuf { s with inputs := rest } x.1).setLen x.1 s.params.frameMax s.free.cell (shown v.toNat) =
        some { operandBuf s x.1 with len := v.toNat, mem := m } := by
      rw [State.operandBuf_inputs, shown_toNat]; exact hset
    rw [step_write_idle hb (ne_cmd_of_mem_operandBufs hx) h, State.writeReg_len_some hx hset',
      State.withOperandBuf_inputs]

/-- A length register ignores a length above the capacity (R44). -/
theorem step_write_len_tooLong (hb : s.busy = false) {x : BufId × Reg} (hx : x ∈ operandBufs) {v : Word}
    (hfit : fits s.params.frameMax v.toNat = false) (h : s.inputs = .host (.write x.2 v.toNat) :: rest) :
    step s = .next { s with inputs := rest, reply := .ignored } := by
  rcases (operandBuf s x.1).setLen_cases x.1 s.params.frameMax s.free.cell v.toNat with ⟨_, hset⟩ | ⟨hyes, _⟩
  · have hset' : (operandBuf { s with inputs := rest } x.1).setLen x.1 s.params.frameMax s.free.cell (shown v.toNat) =
        none := by
      rw [State.operandBuf_inputs, shown_toNat]; exact hset
    rw [step_write_idle hb (ne_cmd_of_mem_operandBufs hx) h, State.writeReg_len_none hx hset']; rfl
  · rw [hyes] at hfit; cases hfit

end

/-- Settles O48, register by register. -/
theorem hostRegisterWrites : Obligations.HostRegisterWrites := by
  intro s rest hb
  refine ⟨fun v hin => ?_, fun v hin => ?_, fun h hh hin => ?_, fun v hin => ?_,
    fun x hx v hin => ⟨fun hfit => step_write_len hb hx hfit hin, fun hfit => step_write_len_tooLong hb hx hfit hin⟩,
    fun r v hr hin => ?_⟩
  · rw [step_write_idle hb (by decide) hin]
    simp [State.writeReg, State.accepted]
  · rw [step_write_idle hb (by decide) hin]
    simp [State.writeReg, State.accepted]
  · rw [step_write_idle hb (by decide) hin]
    simp [State.writeReg, State.accepted, Nat.mod_eq_of_lt hh]
  · rw [step_write_idle hb (by decide) hin]
    simp only [State.writeReg, BitVec.ofNat_toNat, BitVec.setWidth_eq, eq_allOnes_iff]
    split <;> rfl
  · rw [step_write_idle hb (ne_cmd_of_mem_readOnly hr) hin, State.writeReg_readOnly hr]; rfl

/-- Settles O49: a register read answers `regValue`, which is each listed register's value. -/
theorem hostRegisterReads : Obligations.HostRegisterReads := by
  intro s rest hb
  refine ⟨fun r v hmem hin => ?_, fun r v hmem hin => ?_, fun hin => ?_, fun k hin => ?_⟩
  · exact step_read_listed (shows := some) hb
      (by simp [State.regValue, shown, State.flags, flagsWord_toNat, hb]) hmem hin
  · rw [← State.readReply_recordValue]
    exact step_read_listed (shows := s.recordValue) hb (by simp [State.regValue]) hmem hin
  · exact step_read_idle hb hin
  · have hb' : ({ s with inputs := rest } : State).busy = false := hb
    rw [step_readEntry hin, State.hostReadEntry_idle hb']
    by_cases hk : k < s.regy.length <;> simp [hk, readReply]

/-- Settles O50, from what an operand buffer reads after `Memory.writeAll`. -/
theorem bufferWritesAndReads : Obligations.BufferWritesAndReads := by
  intro s off rest hb
  have hb' : ({ s with inputs := rest } : State).busy = false := hb
  refine ⟨fun x hx b hfit hin => ?_, fun x hx b hin => ?_, fun id content n hmem hlen hin => ?_⟩
  · refine ⟨{ operandBuf s x.1 with mem := (operandBuf s x.1).mem.writeAll off b }, ?_, rfl,
      fun k hk => InBuf.byteAt_writeAll_inside _ _ _ _ hk, fun a ha => InBuf.byteAt_writeAll_other _ _ _ ha⟩
    rw [step_writeBuf hin, State.hostWriteBuf_inside hb' hx hfit, State.withOperandBuf_inputs, State.operandBuf_inputs]
  · have hx' : (x.1, x.2) ∈ resultBufs { s with inputs := rest } := hx
    rw [step_writeBuf hin, State.hostWriteBuf_result hx']; rfl
  · have hbuf : ({ s with inputs := rest } : State).buffer id = content := State.buffer_of_mem _ hmem
    rw [step_readBuf hin, State.hostReadBuf_inside hb' (hbuf.symm ▸ hlen), hbuf]
    cases hr : ({ s with inputs := rest } : State).readable id with
    | false => rw [if_pos ((State.readable_eq_false_iff _ id).mp hr)]; rfl
    | true =>
      have hno : ¬((id = .recTopic ∨ id = .recData) ∧ s.recValid = false) := fun h =>
        absurd (hr.symm.trans ((State.readable_eq_false_iff { s with inputs := rest } id).mpr h)) (by decide)
      rw [if_neg hno]; rfl

/-- Settles O51: a read beyond the length shows nothing, a write beyond the capacity is the model's one fault. -/
theorem accessesOutsideBuffers : Obligations.AccessesOutsideBuffers := by
  intro s off rest hb
  refine ⟨fun id content n hmem hlen hin => ?_, fun x hx b hfit hin => ?_⟩
  · have hbuf : ({ s with inputs := rest } : State).buffer id = content := State.buffer_of_mem _ hmem
    rw [step_readBuf hin, State.hostReadBuf_outside (hbuf.symm ▸ hlen)]
  · have hb' : ({ s with inputs := rest } : State).busy = false := hb
    rw [step_writeBuf hin, State.hostWriteBuf_outside hb' hx hfit]

/-! ### Reset -/

/-- Settles O53: the fields of the constructed block, one by one. -/
theorem resetValues : Obligations.ResetValues := by
  refine ⟨rfl, ?_⟩
  rintro p node era _ rfl
  exact ⟨rfl, rfl, rfl, rfl, rfl, rfl, rfl, rfl, rfl, rfl, rfl, rfl, rfl, rfl, rfl, rfl, rfl, rfl, rfl, rfl, rfl, rfl,
    rfl, rfl⟩

end Sys2Proof.Machine
end

section
/-! Which command writes which register and buffer (R59): a relation between the states before and after a command, which
each shared operation of the commands meets. -/

namespace Sys2Proof.Machine

open Sys2Proof Sys2Proof.Safety

/-! ### The results and their commands -/

/-- What no command writes: the operands, and the parameters of the construction. -/
def State.operandPart (s : State) :
    InBuf × InBuf × InBuf × Half × Byte × Handle × Ticks × NodeId × Params :=
  (s.in0, s.in1, s.in2, s.seed, s.ver, s.handle, s.idleTimeout, s.nodeId, s.params)

/-- What the builders write. -/
def State.framePart (s : State) : Bytes × Bytes × Word × Bytes := (s.fbuf, s.txbuf, s.txCount, s.txTrace)

/-- What the link reader writes. -/
def State.burstPart (s : State) : Bytes × Bool × Activity × List Input := (s.acc, s.rxOvf, s.activity, s.inputs)

/-- What the parser writes. -/
def State.recordPart (s : State) : Bool × Record := (s.recValid, s.record)

/-- What the dispatcher writes. -/
def State.dispatchPart (s : State) : Word × List CbItem := (s.dispatched, s.cbTrace)

/-- The commands that run the link reader. -/
def readers : List Instr := [.readBurst, .poll]

/-- The commands that run the parser. -/
def parsers : List Instr := [.parsePublish, .poll]

/-- The commands that run the dispatcher. -/
def dispatchers : List Instr := [.dispatch, .poll]

/-- From `s` to `t` nothing is written but what the command `i` may write. A part that an update leaves alone is equal
by computation, so the proof for an update names only the parts it writes. -/
structure WritesOnly (i : Instr) (s t : State) : Prop where
  operands : t.operandPart = s.operandPart := by rfl
  crc : i ≠ .checksum → t.crc = s.crc := by exact fun _ => rfl
  out : i ≠ .stuff → t.out = s.out := by exact fun _ => rfl
  frame : i ∉ builders → t.framePart = s.framePart := by exact fun _ => rfl
  burst : i ∉ readers → t.burstPart = s.burstPart := by exact fun _ => rfl
  record : i ∉ parsers → t.recordPart = s.recordPart := by exact fun _ => rfl
  regy : i ≠ .register → t.regy = s.regy := by exact fun _ => rfl
  dispatch : i ∉ dispatchers → t.dispatchPart = s.dispatchPart := by exact fun _ => rfl

/-- The reader goes on for the command it was started for. -/
theorem Reading.advance_forPoll {cap : Option Nat} {timeout : Ticks} {r r' : Reading} {e : LineEvent}
    (h : r.advance cap timeout e = .going r') : r'.forPoll = r.forPoll := by
  rcases r.advance_cases cap timeout e with ⟨b, bytes, ha⟩ | ⟨n, ha⟩ | ha <;> rw [ha] at h
  · obtain rfl := ReadStep.going.inj h
    exact Reading.acceptAll_forPoll _ _ _
  · rcases r.wait_cases timeout n with ⟨_, hw⟩ | ⟨_, r'', hw, _, hpoll, _⟩ <;> rw [hw] at h
    · cases h
    · obtain rfl := ReadStep.going.inj h
      exact hpoll
  · cases h

namespace WritesOnly

theorem trans {i : Instr} {s t u : State} (h : WritesOnly i s t) (h' : WritesOnly i t u) : WritesOnly i s u where
  operands := h'.operands.trans h.operands
  crc hi := (h'.crc hi).trans (h.crc hi)
  out hi := (h'.out hi).trans (h.out hi)
  frame hi := (h'.frame hi).trans (h.frame hi)
  burst hi := (h'.burst hi).trans (h.burst hi)
  record hi := (h'.record hi).trans (h.record hi)
  regy hi := (h'.regy hi).trans (h.regy hi)
  dispatch hi := (h'.dispatch hi).trans (h.dispatch hi)

/-! ### The shared operations -/

theorem finish (i : Instr) (s : State) (st : Status) (info : Nat) : WritesOnly i s (s.finish st info) := {}

section
variable {i : Instr} (s : State)

theorem transmit (hi : i ∈ builders) : WritesOnly i s s.transmit := by
  have hdrop : WritesOnly i s s.dropTxAnswer := by
    unfold State.dropTxAnswer
    split <;> exact {}
  rw [State.transmit_eq]
  exact hdrop.trans { frame := absurd hi }

theorem build (hi : i ∈ builders) (check : Option Nat) (frame : Bytes) : WritesOnly i s (s.build check frame) := by
  have hassemble : WritesOnly i s (s.assemble frame) := { frame := absurd hi }
  rcases s.build_cases check frame with ⟨len, _, he⟩ | ⟨_, he⟩ <;> rw [he]
  · exact finish i s _ _
  · exact hassemble.trans (transmit _ hi)

theorem dropRecord (hi : i ∈ parsers) : WritesOnly i s s.dropRecord := { record := absurd hi }

theorem setRecord (hi : i ∈ parsers) (r : Record) : WritesOnly i s (s.setRecord r) := { record := absurd hi }

theorem storeParse (hi : i ∈ parsers) (p : Bytes) : WritesOnly i s (s.storeParse p) := by
  rcases s.storeParse_cases p with ⟨_, he⟩ | ⟨r, _, he⟩ <;> rw [he]
  · exact dropRecord s hi
  · exact setRecord s hi r

theorem setDispatched (hi : i ∈ dispatchers) (n : Word) : WritesOnly i s { s with dispatched := n } :=
  { dispatch := absurd hi }

theorem dispatchAll (hi : i ∈ dispatchers) : WritesOnly i s s.dispatchAll := by
  obtain ⟨items, codes, cons, fr, he, -⟩ := s.dispatchAll_spec
  rw [he]
  exact { dispatch := absurd hi }

/-- Only POLL judges a burst: it parses and dispatches (R186). -/
theorem handleBurst : WritesOnly .poll s s.handleBurst := by
  rcases s.handleBurst_cases with ⟨_, he⟩ | ⟨_, _, _, _, he⟩ | ⟨_, _, _, r, _, he⟩ <;> rw [he]
  · exact finish _ s _ _
  · exact (dropRecord s (by decide)).trans (finish _ _ _ _)
  · exact ((setRecord s (by decide) r).trans (dispatchAll _ (by decide))).trans (finish _ _ _ _)

theorem endReading (hi : i ∈ readers) {r : Reading} (hpoll : r.forPoll = true → i = .poll) :
    WritesOnly i s (s.endReading r) := by
  have hburst : WritesOnly i s { s with acc := r.acc, rxOvf := r.ovf, activity := .ready } := { burst := absurd hi }
  unfold State.endReading
  split
  · rename_i hp
    obtain rfl := hpoll hp
    exact hburst.trans (handleBurst _)
  · exact hburst.trans (finish i _ _ _)

theorem failReading (hi : i ∈ readers) : WritesOnly i s s.failReading := { burst := absurd hi }

theorem drain (hi : i ∈ readers) {r : Reading} (hpoll : r.forPoll = true → i = .poll) (inputs : List Input) :
    WritesOnly i s (s.drain r inputs) := by
  obtain ⟨rest, _, hcases⟩ := s.drain_cases (fun r => r.forPoll = true → i = .poll)
    (fun _ _ _ hp ha => Reading.advance_forPoll ha ▸ hp) (fun _ _ _ hp ha => advance_finished ha ▸ hp) inputs r hpoll
  have hrest : WritesOnly i s { s with inputs := rest } := { burst := absurd hi }
  rcases hcases with ⟨r', _, he⟩ | ⟨r', hr', he⟩ | he <;> rw [he]
  · exact { burst := absurd hi }
  · exact hrest.trans (endReading _ hi hr')
  · exact hrest.trans (failReading _ hi)

theorem startPoll : WritesOnly .poll s s.startPoll :=
  (dropRecord s (by decide)).trans (setDispatched _ (by decide) 0)

theorem execRegister : ∃ t, execRegister s = .next t ∧ WritesOnly .register s t := by
  rcases execRegister_cases s with ⟨_, he⟩ | ⟨_, _, he⟩ | ⟨_, _, he⟩
  · exact ⟨_, he, finish _ s _ _⟩
  · exact ⟨_, he, finish _ s _ _⟩
  · exact ⟨_, he, { regy := absurd rfl }⟩

end

/-! ### The commands -/

/-- Every command completes and writes only what it may. -/
theorem exec {i : Instr} (hi : tableOf i = .command) (s : State) : ∃ t, exec i s = .next t ∧ WritesOnly i s t := by
  cases i with
  | checksum => exact ⟨_, rfl, { crc := absurd rfl }⟩
  | stuff => exact ⟨_, rfl, { out := absurd rfl }⟩
  | buildSubscribe | buildPublishRaw | buildPublishLog | buildPublishPrint =>
    exact ⟨_, rfl, build s (by decide) _ _⟩
  | readBurst => exact ⟨_, rfl, drain s (by decide) (fun hp => by cases hp) _⟩
  | parsePublish => exact ⟨_, rfl, (storeParse s (by decide) _).trans (finish _ _ _ _)⟩
  | register => exact execRegister s
  | dispatch =>
    refine ⟨_, rfl, ?_⟩
    split
    · exact (dispatchAll s (by decide)).trans (finish _ _ _ _)
    · exact (setDispatched s (by decide) 0).trans (finish _ _ _ _)
  | poll => exact ⟨_, rfl, (startPoll s).trans (drain _ (by decide) (fun _ => rfl) _)⟩
  | frameSubscribe | framePublishRaw | framePublishLog | framePublishPrint | framePublishInbound => cases hi

end WritesOnly

/-- Settles O57: what `WritesOnly` says of the command, part by part. -/
theorem commandsWriteOnlyTheirResults : Obligations.CommandsWriteOnlyTheirResults := by
  intro i s hi
  obtain ⟨t, he, hw⟩ := WritesOnly.exec hi s
  have hops := hw.operands
  simp only [State.operandPart, Prod.mk.injEq] at hops
  obtain ⟨hin0, hin1, hin2, hseed, hver, hhandle, htimeout, hnode, hparams⟩ := hops
  refine ⟨t, he, hin0, hin1, hin2, hseed, hver, hhandle, htimeout, hnode, hparams, hw.crc, hw.out, fun hb => ?_,
    fun hr hp => ?_, fun hr hp => ?_, hw.regy, fun hd hp => ?_⟩
  · simpa [State.framePart] using hw.frame hb
  · simpa [State.burstPart] using hw.burst (by simp [readers, hr, hp])
  · simpa [State.recordPart] using hw.record (by simp [parsers, hr, hp])
  · simpa [State.dispatchPart] using hw.dispatch (by simp [dispatchers, hd, hp])

end Sys2Proof.Machine
end

section
/-! The codec: what the byte-string helpers invert, and of each decoder exactly which bytes it accepts and what it then
answers. Both directions of the round trip follow from the one equivalence `decode_eq_ok_iff`. -/

namespace Sys2Proof.Machine

open Sys2Proof

/-! ### Slices and little-endian fields (R7, R46, R64) -/

/-- Cutting a known number of bytes off the front of what stands at an offset. -/
theorem drop_eq_append_iff {bytes front back : Bytes} {off n : Nat} (hn : front.length = n) :
    bytes.drop off = front ++ back ↔ slice bytes off n = front ∧ bytes.drop (off + n) = back := by
  subst hn
  unfold slice
  constructor
  · intro h
    rw [← List.drop_drop, h]
    simp
  · rintro ⟨hfront, hback⟩
    rw [← hfront, ← hback, ← List.drop_drop, hfront]
    conv_lhs => rw [← List.take_append_drop front.length (bytes.drop off), hfront]

/-- Two bytes as a slice and one by one. -/
theorem slice_two_eq {bytes : Bytes} {off : Nat} (h : off + 2 ≤ bytes.length) :
    slice bytes off 2 = [bytes.getD off 0, bytes.getD (off + 1) 0] := by
  refine List.ext_getElem (by simp; omega) fun k hk hk' => ?_
  simp only [List.length_cons, List.length_nil] at hk'
  obtain rfl | rfl : k = 0 ∨ k = 1 := by omega
  · simp [slice, List.getElem?_eq_getElem (show off < bytes.length by omega)]
  · simp [slice, List.getElem?_eq_getElem (show off + 1 < bytes.length by omega)]

/-- Byte strings of equal length that stand for the same number are equal. -/
theorem eq_of_fromLe_eq {a b : Bytes} (hlen : a.length = b.length) (h : fromLe a = fromLe b) : a = b := by
  induction a generalizing b with
  | nil => exact (List.length_eq_zero_iff.mp hlen.symm).symm
  | cons x xs ih =>
    cases b with
    | nil => cases hlen
    | cons y ys =>
      have hx := x.isLt
      have hy := y.isLt
      simp only [fromLe] at h
      have hhead : x = y := BitVec.eq_of_toNat_eq (by omega)
      rw [hhead, ih (by simpa using hlen) (by omega)]

theorem le16_fromLe {s : Bytes} (h : s.length = 2) : le16 (BitVec.ofNat 16 (fromLe s)) = s := by
  have hlt : fromLe s < 2 ^ 16 := by simpa [h] using fromLe_lt s
  exact eq_of_fromLe_eq h.symm (by rw [fromLe_le16, BitVec.toNat_ofNat, Nat.mod_eq_of_lt hlt])

theorem le64_fromLe {s : Bytes} (h : s.length = 8) : le64 (BitVec.ofNat 64 (fromLe s)) = s := by
  have hlt : fromLe s < 2 ^ 64 := by simpa [h] using fromLe_lt s
  exact eq_of_fromLe_eq h.symm (by rw [fromLe_le64, BitVec.toNat_ofNat, Nat.mod_eq_of_lt hlt])

/-- The number a `u16` field holds is `n` exactly when its two bytes are those of `n`. -/
theorem eq_le16_iff {s : Bytes} {n : Nat} (hn : n ≤ maxField) :
    s = le16 (BitVec.ofNat 16 n) ↔ s.length = 2 ∧ fromLe s = n := by
  have hmod : n % 2 ^ 16 = n := Nat.mod_eq_of_lt (by unfold maxField at hn; omega)
  constructor
  · rintro rfl
    exact ⟨rfl, by rw [fromLe_le16, BitVec.toNat_ofNat, hmod]⟩
  · rintro ⟨hlen, rfl⟩
    exact (le16_fromLe hlen).symm

/-! ### The error paths of a decoder -/

theorem ite_error_eq_ok_iff {ε α : Type} {c : Prop} [Decidable c] {e : ε} {x : Except ε α} {v : α} :
    (if c then .error e else x) = .ok v ↔ ¬c ∧ x = .ok v := by
  split <;> simp [*]

theorem bind_eq_ok_iff {ε α β : Type} {x : Except ε α} {f : α → Except ε β} {v : β} :
    (x >>= f) = .ok v ↔ ∃ a, x = .ok a ∧ f a = .ok v := by
  cases x <;> simp [bind, Except.bind]

/-! ### Counted byte strings (R64) -/

/-- What stands at the offset is the string under its length field. -/
theorem takeCounted_eq_ok_iff {bytes x rest : Bytes} {off : Nat} :
    takeCounted bytes off = .ok (x, rest) ↔ x.length ≤ maxField ∧ bytes.drop off = lenField x ++ (x ++ rest) := by
  have hu16 := fromLe_slice_two_le bytes off
  unfold takeCounted
  simp only [ite_error_eq_ok_iff, Except.ok.injEq, Prod.mk.injEq, Nat.not_lt]
  rw [drop_eq_append_iff (length_lenField x), drop_eq_append_iff rfl]
  constructor
  · rintro ⟨_, hn, rfl, rfl⟩
    have hlen : (slice bytes (off + 2) (fromLe (slice bytes off 2))).length = fromLe (slice bytes off 2) := by
      rw [length_slice]; omega
    rw [hlen]
    exact ⟨hu16, (by rw [lenField, hlen, le16_fromLe (by rw [length_slice]; omega)]), rfl, rfl⟩
  · rintro ⟨hx, hfield, hx', hrest⟩
    obtain ⟨hlen2, hval⟩ := (eq_le16_iff hx).mp hfield
    have hxlen := congrArg List.length hx'
    rw [length_slice] at hlen2 hxlen
    rw [hval]
    exact ⟨by omega, by omega, hx', hrest⟩

/-! ### Finished frames (R60, R62, R63) -/

/-- The bytes of a finished outbound frame are told by its header, its checksum and its body. -/
theorem finalizeFrame_eq_iff {bytes body : Bytes} {type : Byte} :
    finalizeFrame (header type ++ body) = bytes ↔
      4 ≤ bytes.length ∧ bytes.getD 0 0 = type ∧ bytes.getD 1 0 = 0 ∧ checksumHolds bytes = true ∧
        bytes.drop 4 = body := by
  constructor
  · rintro rfl
    exact ⟨by simp, rfl, rfl, checksumHolds_finalizeFrame type body, rfl⟩
  · rintro ⟨hlen, htype, hres, hck, rfl⟩
    match bytes, hlen with
    | a :: b :: c :: d :: tl, _ =>
      obtain rfl : a = type := htype
      obtain rfl : b = 0 := hres
      have hfield : [c, d] = le16 (checksum Config.frameSeed (header a ++ tl)) := of_decide_eq_true hck
      rw [le16, List.cons.injEq, List.cons.injEq] at hfield
      obtain ⟨rfl, rfl, _⟩ := hfield
      rfl

/-- FINALIZE writes the header only. -/
theorem drop_four_finalizeFrame (type : Byte) (body : Bytes) : (finalizeFrame (header type ++ body)).drop 4 = body :=
  rfl

/-! ### The outbound layouts (R65 to R68) -/

/-- The part of an outbound publish frame that the three layouts share, and what follows it. -/
theorem rawFrame_eq (n : NodeId) (t : Bytes) (v : Byte) (d : Bytes) :
    rawFrame n t v d = header typePublish ++ (le64 n ++ ([0x01, 0x01] ++ (lenField t ++ (t ++ v :: d)))) := by
  simp [rawFrame, pubHdr]

/-- What follows the topic of a log frame (R67). -/
def textTail (f x : Bytes) : Bytes := reserved8 ++ (lenField f ++ (textField x ++ (f ++ (x ++ [newline]))))

theorem logFrame_eq (n : NodeId) (t f x : Bytes) :
    logFrame n t f x = header typePublish ++ (le64 n ++ ([0x01, 0x01] ++ (lenField t ++ (t ++ textTail f x)))) := by
  simp [logFrame, pubHdr, textTail]

theorem decodeSubscribe_eq_ok_iff {bytes : Bytes} {i : Instr} :
    decodeSubscribe bytes = .ok i ↔
      ∃ t, i = .frameSubscribe t ∧ t.length ≤ maxField ∧ finalizeFrame (subscribeFrame t) = bytes := by
  unfold decodeSubscribe
  simp only [ite_error_eq_ok_iff, bind_eq_ok_iff, Prod.exists, takeCounted_eq_ok_iff, Except.ok.injEq, Nat.not_lt,
    ne_eq, Decidable.not_not, Bool.not_eq_true', Bool.not_eq_false, subscribeFrame, List.append_assoc,
    finalizeFrame_eq_iff]
  constructor
  · rintro ⟨hlen, htype, hres, hck, t, _, ⟨ht, hbody⟩, rfl, rfl⟩
    exact ⟨t, rfl, ht, by omega, htype, hres, hck, by simpa using hbody⟩
  · rintro ⟨t, rfl, ht, hlen, htype, hres, hck, hbody⟩
    have hbodyLen := congrArg List.length hbody
    simp only [List.length_drop, List.length_append, length_lenField] at hbodyLen
    exact ⟨by omega, htype, hres, hck, t, [], ⟨ht, by simpa using hbody⟩, rfl, rfl⟩

/-- The three outbound publish layouts agree up to the end of the topic. -/
theorem decodePublishHead_eq_ok_iff {bytes t rest : Bytes} {n : NodeId} :
    decodePublishHead bytes = .ok (n, t, rest) ↔ t.length ≤ maxField ∧
      finalizeFrame (header typePublish ++ (le64 n ++ ([0x01, 0x01] ++ (lenField t ++ (t ++ rest))))) = bytes := by
  unfold decodePublishHead
  simp only [ite_error_eq_ok_iff, bind_eq_ok_iff, Prod.exists, takeCounted_eq_ok_iff, Except.ok.injEq, Prod.mk.injEq,
    Nat.not_lt, ne_eq, Decidable.not_not, Bool.not_eq_true', Bool.not_eq_false, finalizeFrame_eq_iff,
    drop_eq_append_iff (length_le64 n), drop_eq_append_iff (n := 2) (front := [0x01, 0x01]) rfl]
  constructor
  · rintro ⟨hlen, htype, hres, hconst, hck, _, _, ⟨ht, htopic⟩, rfl, rfl, rfl⟩
    exact ⟨ht, by omega, htype, hres, hck, (le64_fromLe (by rw [length_slice]; omega)).symm, hconst, htopic⟩
  · rintro ⟨ht, hlen, htype, hres, hck, hnode, hconst, htopic⟩
    have htopicLen := congrArg List.length htopic
    simp only [List.length_drop, List.length_append, length_lenField] at htopicLen
    exact ⟨by omega, htype, hres, hconst, hck, t, rest, ⟨ht, htopic⟩, by simp [hnode], rfl, rfl⟩

theorem decodeRaw_eq_ok_iff {bytes : Bytes} {i : Instr} :
    decodeRaw bytes = .ok i ↔
      ∃ n t v d, i = .framePublishRaw n t v d ∧ t.length ≤ maxField ∧ finalizeFrame (rawFrame n t v d) = bytes := by
  unfold decodeRaw
  simp only [bind_eq_ok_iff, Prod.exists, decodePublishHead_eq_ok_iff, rawFrame_eq]
  constructor
  · rintro ⟨n, t, rest, ⟨ht, hframe⟩, hi⟩
    cases rest with
    | nil => cases hi
    | cons v d => exact ⟨n, t, v, d, (Except.ok.inj hi).symm, ht, hframe⟩
  · rintro ⟨n, t, v, d, rfl, ht, hframe⟩
    exact ⟨n, t, v :: d, ⟨ht, hframe⟩, rfl⟩

theorem decodeTextTail_eq_ok_iff {rest f x : Bytes} :
    decodeTextTail rest = .ok (f, x) ↔
      f.length ≤ maxField ∧ x.length + 1 ≤ maxField ∧ rest = textTail f x := by
  have hf16 := fromLe_slice_two_le rest 8
  have hx16 := fromLe_slice_two_le rest 10
  have hslices : rest = textTail f x ↔ slice rest 0 8 = reserved8 ∧ slice rest 8 2 = lenField f ∧
      slice rest 10 2 = textField x ∧ slice rest 12 f.length = f ∧ slice rest (12 + f.length) x.length = x ∧
      rest.drop (12 + f.length + x.length) = [newline] := by
    rw [← List.drop_zero (l := rest), textTail, drop_eq_append_iff length_reserved8,
      drop_eq_append_iff (length_lenField f), drop_eq_append_iff (length_textField x), drop_eq_append_iff rfl,
      drop_eq_append_iff rfl]
    simp only [List.drop_zero, Nat.zero_add]
  have htake : rest.take 8 = slice rest 0 8 := rfl
  unfold decodeTextTail
  simp only [ite_error_eq_ok_iff, Except.ok.injEq, Prod.mk.injEq, Nat.not_lt, ne_eq, not_or, Decidable.not_not, hslices,
    htake]
  constructor
  · rintro ⟨_, hres, ⟨hlen, hpos⟩, hnl, rfl, rfl⟩
    have hflen : (slice rest 12 (fromLe (slice rest 8 2))).length = fromLe (slice rest 8 2) := by
      rw [length_slice]; omega
    have hxlen : (slice rest (12 + fromLe (slice rest 8 2)) (fromLe (slice rest 10 2) - 1)).length + 1 =
        fromLe (slice rest 10 2) := by
      rw [length_slice]; omega
    rw [hflen, Nat.eq_sub_of_add_eq hxlen, lenField, textField, hflen, hxlen]
    exact ⟨hf16, by unfold maxField; omega, hres, (le16_fromLe (by rw [length_slice]; omega)).symm,
      (le16_fromLe (by rw [length_slice]; omega)).symm, rfl, rfl, hnl⟩
  · rintro ⟨hf, hx, hres, hfField, hxField, hfBytes, hxBytes, hnl⟩
    obtain ⟨_, hfval⟩ := (eq_le16_iff hf).mp hfField
    obtain ⟨_, hxval⟩ := (eq_le16_iff hx).mp hxField
    have hlen := congrArg List.length hnl
    simp only [List.length_drop, List.length_cons, List.length_nil] at hlen
    rw [hfval, hxval, Nat.add_sub_cancel, ← Nat.add_assoc]
    exact ⟨by omega, hres, ⟨by omega, by omega⟩, hnl, hfBytes, hxBytes⟩

theorem decodeLog_eq_ok_iff {bytes : Bytes} {i : Instr} :
    decodeLog bytes = .ok i ↔
      ∃ n t f x, i = .framePublishLog n t f x ∧ (t.length ≤ maxField ∧ f.length ≤ maxField ∧ x.length + 1 ≤ maxField) ∧
        finalizeFrame (logFrame n t f x) = bytes := by
  unfold decodeLog
  simp only [bind_eq_ok_iff, Prod.exists, decodePublishHead_eq_ok_iff, decodeTextTail_eq_ok_iff, Except.ok.injEq,
    logFrame_eq]
  constructor
  · rintro ⟨n, t, _, ⟨ht, hframe⟩, f, x, ⟨hf, hx, rfl⟩, rfl⟩
    exact ⟨n, t, f, x, rfl, ⟨ht, hf, hx⟩, hframe⟩
  · rintro ⟨n, t, f, x, rfl, ⟨ht, hf, hx⟩, hframe⟩
    exact ⟨n, t, _, ⟨ht, hframe⟩, f, x, ⟨hf, hx, rfl⟩, rfl⟩

theorem decodePrint_eq_ok_iff {bytes : Bytes} {i : Instr} :
    decodePrint bytes = .ok i ↔
      ∃ n t x, i = .framePublishPrint n t x ∧ (t.length ≤ maxField ∧ x.length + 1 ≤ maxField) ∧
        finalizeFrame (printFrame n t x) = bytes := by
  unfold decodePrint
  simp only [bind_eq_ok_iff, ite_error_eq_ok_iff, Prod.exists, decodePublishHead_eq_ok_iff, decodeTextTail_eq_ok_iff,
    Except.ok.injEq, printFrame_eq_logFrame, logFrame_eq, ne_eq, Decidable.not_not]
  constructor
  · rintro ⟨n, t, _, ⟨ht, hframe⟩, _, x, ⟨_, hx, rfl⟩, rfl, rfl⟩
    exact ⟨n, t, x, rfl, ⟨ht, hx⟩, hframe⟩
  · rintro ⟨n, t, x, rfl, ⟨ht, hx⟩, hframe⟩
    exact ⟨n, t, _, ⟨ht, hframe⟩, [], x, ⟨Nat.zero_le _, hx, rfl⟩, rfl, rfl⟩

/-! ### The inbound layout (R69, R160) -/

/-- The body of a publish frame: what stands after its four header bytes (R69). -/
def publishBody (n : NodeId) (y v : Byte) (t d : Bytes) : Bytes := le64 n ++ ([y, v] ++ (lenField t ++ (t ++ d)))

/-- The record of these fields (R160). -/
def publishRecord (n : NodeId) (y v : Byte) (t d : Bytes) : Record :=
  { nodeId := n, type := y, version := v, topicLen := BitVec.ofNat 16 t.length, topic := t,
    dataLen := BitVec.ofNat 32 d.length, data := d }

theorem inboundFrame_eq (r : Byte) (c : Half) (n : NodeId) (y v : Byte) (t d : Bytes) :
    inboundFrame r c n y v t d = [typePublish, r] ++ (le16 c ++ publishBody n y v t d) := by
  simp [inboundFrame, publishBody]

/-- The body of an outbound publish frame is one of type and version 1. -/
theorem drop_four_finalizeFrame_rawFrame (n : NodeId) (t : Bytes) (v : Byte) (d : Bytes) :
    (finalizeFrame (rawFrame n t v d)).drop 4 = publishBody n 0x01 0x01 t (v :: d) := by
  rw [rawFrame_eq, drop_four_finalizeFrame, publishBody]

theorem drop_four_finalizeFrame_logFrame (n : NodeId) (t f x : Bytes) :
    (finalizeFrame (logFrame n t f x)).drop 4 = publishBody n 0x01 0x01 t (textTail f x) := by
  rw [logFrame_eq, drop_four_finalizeFrame, publishBody]

theorem eq_publishBody_iff {p t d : Bytes} {n : NodeId} {y v : Byte} :
    p = publishBody n y v t d ↔ slice p 0 8 = le64 n ∧ slice p 8 2 = [y, v] ∧ slice p 10 2 = lenField t ∧
      slice p 12 t.length = t ∧ p.drop (12 + t.length) = d := by
  rw [← List.drop_zero (l := p), publishBody, drop_eq_append_iff (length_le64 n),
    drop_eq_append_iff (n := 2) (front := [y, v]) rfl, drop_eq_append_iff (length_lenField t), drop_eq_append_iff rfl]
  simp only [List.drop_zero, Nat.zero_add]

theorem length_publishBody (n : NodeId) (y v : Byte) (t d : Bytes) :
    (publishBody n y v t d).length = 12 + t.length + d.length := by
  simp [publishBody]; omega

/-- The parser answers the record of exactly the bodies that have its fields (R160). -/
theorem parseBody_eq_some_iff {p : Bytes} {r : Record} :
    parseBody p = some r ↔ ∃ n y v t d, t.length ≤ maxField ∧ p = publishBody n y v t d ∧
      r = publishRecord n y v t d := by
  constructor
  · intro h
    obtain ⟨htopic, hdata, hlen⟩ := parseBody_lengths h
    have hu16 := fromLe_slice_two_le p 10
    rcases parseBody_cases p with ⟨_, hn⟩ | ⟨_, _, hn⟩ | ⟨hle, r', hr, hnode, htype, hver, htl, ht, _, hd⟩
    · rw [hn] at h; cases h
    · rw [hn] at h; cases h
    · obtain rfl : r' = r := Option.some.inj (hr.symm.trans h)
      have htlen : r'.topic.length = fromLe (slice p 10 2) := by rw [ht, length_slice]; omega
      refine ⟨r'.nodeId, r'.type, r'.version, r'.topic, r'.data, htlen ▸ hu16, ?_, ?_⟩
      · rw [eq_publishBody_iff, lenField, htlen]
        refine ⟨?_, ?_, ?_, ht.symm, hd.symm⟩
        · rw [hnode, le64_fromLe (by rw [length_slice]; omega)]
        · rw [htype, hver, slice_two_eq (by omega)]
        · rw [le16_fromLe (by rw [length_slice]; omega)]
      · have htl' : r'.topicLen = BitVec.ofNat 16 r'.topic.length := htlen ▸ htl
        obtain ⟨⟩ := r'
        simp only at htl' hdata
        simp only [publishRecord, ← htl', ← hdata]
  · rintro ⟨n, y, v, t, d, ht, hp, rfl⟩
    have hlen := length_publishBody n y v t d
    rw [← hp] at hlen
    obtain ⟨hnode, htypes, hfield, htopic, hdata⟩ := eq_publishBody_iff.mp hp
    obtain ⟨_, htl⟩ := (eq_le16_iff ht).mp hfield
    rw [slice_two_eq (by omega), List.cons.injEq, List.cons.injEq] at htypes
    obtain ⟨htype, hver, _⟩ := htypes
    have hle : ¬12 + t.length > p.length := by omega
    have hrest : p.length - (12 + t.length) = d.length := by omega
    unfold parseBody
    rw [if_neg (by omega)]
    simp only [htl, hnode, htype, hver, htopic, hdata, hle, hrest, if_false, fromLe_le64, BitVec.ofNat_toNat,
      BitVec.setWidth_eq, publishRecord]

theorem parseBody_publishBody {t : Bytes} (ht : t.length ≤ maxField) (n : NodeId) (y v : Byte) (d : Bytes) :
    parseBody (publishBody n y v t d) = some (publishRecord n y v t d) :=
  parseBody_eq_some_iff.mpr ⟨n, y, v, t, d, ht, rfl, rfl⟩

theorem decodeInbound_eq_ok_iff {bytes : Bytes} {i : Instr} :
    decodeInbound bytes = .ok i ↔
      ∃ r c n y v t d, i = .framePublishInbound r c n y v t d ∧ t.length ≤ maxField ∧
        inboundFrame r c n y v t d = bytes := by
  unfold decodeInbound
  simp only [ite_error_eq_ok_iff, Nat.not_lt, ne_eq, Decidable.not_not]
  constructor
  · rintro ⟨_, htype, hlen, hi⟩
    split at hi
    · cases hi
    · rename_i rec hrec
      obtain ⟨n, y, v, t, d, ht, hbody, rfl⟩ := parseBody_eq_some_iff.mp hrec
      refine ⟨_, _, n, y, v, t, d, (Except.ok.inj hi).symm, ht, ?_⟩
      have hhead : slice bytes 0 2 = [typePublish, bytes.getD 1 0] := htype ▸ slice_two_eq (by omega)
      have hck : slice bytes 2 2 = le16 (BitVec.ofNat 16 (fromLe (slice bytes 2 2))) :=
        (le16_fromLe (by rw [length_slice]; omega)).symm
      rw [inboundFrame_eq]
      exact ((drop_eq_append_iff (off := 0) (n := 2) rfl).mpr
        ⟨hhead, (drop_eq_append_iff (length_le16 _)).mpr ⟨hck, hbody⟩⟩).symm
  · rintro ⟨r, c, n, y, v, t, d, rfl, ht, rfl⟩
    have hdrop : (inboundFrame r c n y v t d).drop 4 = publishBody n y v t d := by rw [inboundFrame_eq]; rfl
    have hck : slice (inboundFrame r c n y v t d) 2 2 = le16 c := rfl
    have hlen := length_inboundFrame r c n y v t d
    refine ⟨by omega, rfl, by omega, ?_⟩
    rw [hdrop, parseBody_publishBody ht, hck, fromLe_le16, BitVec.ofNat_toNat, BitVec.setWidth_eq]
    rfl

/-! ### The command codes (R75, R76) -/

/-- The codes of R75. -/
def assignedCodes : Bytes := [0x01, 0x02, 0x10, 0x11, 0x12, 0x13, 0x20, 0x21, 0x30, 0x31, 0x32]

theorem decodeCommand_unassigned {c : Byte} (h : c ∉ assignedCodes) : decodeCommand c = .error (.unassigned c) := by
  simp only [assignedCodes, List.mem_cons, List.not_mem_nil, or_false, not_or] at h
  simp only [decodeCommand, h, if_false]

theorem tableOf_of_decodeCommand {c : Byte} {i : Instr} (h : decodeCommand c = .ok i) :
    tableOf i = .command ∧ i.wellFormed = true ∧ encode i = [c] := by
  by_cases hc : c ∈ assignedCodes
  · simp only [assignedCodes, List.mem_cons, List.not_mem_nil, or_false] at hc
    rcases hc with rfl | rfl | rfl | rfl | rfl | rfl | rfl | rfl | rfl | rfl | rfl <;>
      (obtain rfl := Except.ok.inj h; exact ⟨rfl, rfl, rfl⟩)
  · rw [decodeCommand_unassigned hc] at h; cases h

/-! ### Well-formed frames (R64, R72) -/

theorem wellFormed_frameSubscribe_iff {t : Bytes} :
    (Instr.frameSubscribe t).wellFormed = true ↔ t.length ≤ maxField := by simp [Instr.wellFormed]

theorem wellFormed_framePublishRaw_iff {n : NodeId} {t d : Bytes} {v : Byte} :
    (Instr.framePublishRaw n t v d).wellFormed = true ↔ t.length ≤ maxField := by simp [Instr.wellFormed]

theorem wellFormed_framePublishLog_iff {n : NodeId} {t f x : Bytes} :
    (Instr.framePublishLog n t f x).wellFormed = true ↔
      t.length ≤ maxField ∧ f.length ≤ maxField ∧ x.length + 1 ≤ maxField := by
  simp [Instr.wellFormed, and_assoc]

theorem wellFormed_framePublishPrint_iff {n : NodeId} {t x : Bytes} :
    (Instr.framePublishPrint n t x).wellFormed = true ↔ t.length ≤ maxField ∧ x.length + 1 ≤ maxField := by
  simp [Instr.wellFormed]

theorem wellFormed_framePublishInbound_iff {r : Byte} {c : Half} {n : NodeId} {y v : Byte} {t d : Bytes} :
    (Instr.framePublishInbound r c n y v t d).wellFormed = true ↔ t.length ≤ maxField := by simp [Instr.wellFormed]

/-! ### The round trip -/

/-- Settles O41, by the instruction: each decoder accepts every encoding of its layout. -/
theorem decodeOfEncode : Obligations.DecodeOfEncode := by
  intro i hwf
  cases i with
  | checksum | stuff | buildSubscribe | buildPublishRaw | buildPublishLog | buildPublishPrint | readBurst
  | parsePublish | register | dispatch | poll => rfl
  | frameSubscribe t => exact decodeSubscribe_eq_ok_iff.mpr ⟨t, rfl, wellFormed_frameSubscribe_iff.mp hwf, rfl⟩
  | framePublishRaw n t v d =>
    exact decodeRaw_eq_ok_iff.mpr ⟨n, t, v, d, rfl, wellFormed_framePublishRaw_iff.mp hwf, rfl⟩
  | framePublishLog n t f x =>
    exact decodeLog_eq_ok_iff.mpr ⟨n, t, f, x, rfl, wellFormed_framePublishLog_iff.mp hwf, rfl⟩
  | framePublishPrint n t x =>
    exact decodePrint_eq_ok_iff.mpr ⟨n, t, x, rfl, wellFormed_framePublishPrint_iff.mp hwf, rfl⟩
  | framePublishInbound r c n y v t d =>
    exact decodeInbound_eq_ok_iff.mpr ⟨r, c, n, y, v, t, d, rfl, wellFormed_framePublishInbound_iff.mp hwf, rfl⟩

/-- Settles O42, by the table: each decoder accepts nothing but the encodings of its layout. -/
theorem encodeOfDecode : Obligations.EncodeOfDecode := by
  intro table bytes i h
  cases table with
  | command =>
    match bytes, h with
    | [c], h => exact tableOf_of_decodeCommand h
  | subscribe =>
    obtain ⟨t, rfl, ht, he⟩ := decodeSubscribe_eq_ok_iff.mp h
    exact ⟨rfl, wellFormed_frameSubscribe_iff.mpr ht, he⟩
  | publishRaw =>
    obtain ⟨n, t, v, d, rfl, ht, he⟩ := decodeRaw_eq_ok_iff.mp h
    exact ⟨rfl, wellFormed_framePublishRaw_iff.mpr ht, he⟩
  | publishLog =>
    obtain ⟨n, t, f, x, rfl, hlen, he⟩ := decodeLog_eq_ok_iff.mp h
    exact ⟨rfl, wellFormed_framePublishLog_iff.mpr hlen, he⟩
  | publishPrint =>
    obtain ⟨n, t, x, rfl, hlen, he⟩ := decodePrint_eq_ok_iff.mp h
    exact ⟨rfl, wellFormed_framePublishPrint_iff.mpr hlen, he⟩
  | publishInbound =>
    obtain ⟨r, c, n, y, v, t, d, rfl, ht, he⟩ := decodeInbound_eq_ok_iff.mp h
    exact ⟨rfl, wellFormed_framePublishInbound_iff.mpr ht, he⟩

/-- Settles O43: the codes of R75 one by one, and `decodeCommand_unassigned`. -/
theorem commandCodes : Obligations.CommandCodes :=
  ⟨rfl, rfl, rfl, rfl, rfl, rfl, rfl, rfl, rfl, rfl, rfl, fun _ => decodeCommand_unassigned⟩

/-- Settles O44: each byte string is the encoding of its frame, which is well-formed. -/
theorem writtenOutFramesDecode : Obligations.WrittenOutFramesDecode := by
  refine ⟨?_, ?_, ?_, ?_⟩
  · exact decodeOfEncode (.frameSubscribe []) rfl
  · exact decodeOfEncode (.framePublishRaw 0 [0x74] 0x00 []) rfl
  · exact decodeOfEncode (.framePublishPrint 1 [0x70] []) rfl
  · exact decodeOfEncode (.framePublishInbound 0xFF 0x1234 0 0x01 0x01 [0x5A] []) rfl

/-- Settles O29: the body of an outbound publish frame is a publish body of type and version 1, which the parser reads. -/
theorem ownFramesParse : Obligations.OwnFramesParse := by
  intro n t ht
  refine ⟨publishRecord n 0x01 0x01 t, fun _ => rfl, fun v d => ?_, fun f x _ _ => ?_, fun x _ => ?_⟩
  · rw [encode, drop_four_finalizeFrame_rawFrame, parseBody_publishBody ht]
  · rw [encode, drop_four_finalizeFrame_logFrame, parseBody_publishBody ht]
    simp [textTail, reserved8, lenField, textField, newline]
  · rw [encode, printFrame_eq_logFrame, drop_four_finalizeFrame_logFrame, parseBody_publishBody ht]
    simp [textTail, reserved8, lenField, textField, newline, le16, lo8, hi8]

end Sys2Proof.Machine
end

section
/-! What a step, a frame row and a POLL do: a write of an unassigned code, the outbound frames in `FBUF` and `TXBUF`, and
the line's bytes as the burst that POLL judges. -/

namespace Sys2Proof.Machine

open Sys2Proof Sys2Proof.Safety

/-! ### A write of an unassigned code (R76) -/

theorem State.start_unassigned {s : State} {code : Byte} (hb : s.busy = false) (hc : code ∉ assignedCodes) :
    s.start code = .over (.next ({ s with cmd := code, reply := .done }.finish .errCmd code.toNat)) := by
  rcases s.start_cases code with ⟨hbusy, _⟩ | ⟨_, i, hi, _⟩ | ⟨_, _, _, hstart⟩
  · rw [hb] at hbusy; cases hbusy
  · rw [decodeCommand_unassigned hc] at hi; cases hi
  · exact hstart

/-- Settles O46: the write of `CMD` starts nothing and finishes with `ERR_CMD`. -/
theorem unassignedCodeIsErrCmd : Obligations.UnassignedCodeIsErrCmd := by
  intro s c rest hb hc hin
  have hfetch := State.fetch_host hin
  have hb' : ({ s with inputs := rest } : State).busy = false := hb
  rw [State.access, BitVec.ofNat_toNat, BitVec.setWidth_eq, State.start_unassigned hb' hc] at hfetch
  rw [step_of_fetch_over hfetch, State.finish, BitVec.ofNat_toNat]
  rfl

/-! ### The outbound frame rows (R65 to R68, R115, R118) -/

/-- Where no operand exceeds its limit, the length check compares the total with `FRAME_MAX` (R118). -/
theorem lengthCheck_of_le {cap : Option Nat} {ops : List (Nat × Nat)} {total : Nat} (h : ∀ o ∈ ops, o.1 ≤ o.2) :
    lengthCheck cap ops total = if fits cap total then none else some total := by
  induction ops with
  | nil => rfl
  | cons o rest ih =>
    obtain ⟨ho, hrest⟩ := List.forall_mem_cons.mp h
    rw [lengthCheck, if_neg (Nat.not_lt.mpr ho), ih hrest]

/-- Preparing a frame whose operands are within their limits: whole, or refused with its length. -/
theorem State.prepare_of_le (s : State) {ops : List (Nat × Nat)} {frame : Bytes} {total : Nat}
    (h : ∀ o ∈ ops, o.1 ≤ o.2) (htotal : (finalizeFrame frame).length = total) :
    s.prepare (lengthCheck s.params.frameMax ops total) frame =
      if fits s.params.frameMax (finalizeFrame frame).length then s.assemble frame
      else s.tooLong (finalizeFrame frame).length := by
  rw [lengthCheck_of_le h, htotal]
  split <;> rfl

/-- The tables of the outbound frames. -/
def outboundTables : List Table := [.subscribe, .publishRaw, .publishLog, .publishPrint]

theorem exec_outbound {f : Instr} (hwf : f.wellFormed = true) (htable : tableOf f ∈ outboundTables) (s : State) :
    exec f s = .next
      (if fits s.params.frameMax (encode f).length then
        { s with fbuf := encode f, txbuf := wireImage (encode f) }
       else s.tooLong (encode f).length) := by
  cases f with
  | frameSubscribe t =>
    have ht := wellFormed_frameSubscribe_iff.mp hwf
    exact congrArg Host.Outcome.next (s.prepare_of_le (by simpa [maxField] using ht) (by simp))
  | framePublishRaw n t v d =>
    have ht := wellFormed_framePublishRaw_iff.mp hwf
    exact congrArg Host.Outcome.next (s.prepare_of_le (by simpa [maxField] using ht) (by simp))
  | framePublishLog n t f x =>
    obtain ⟨ht, hf, hx⟩ := wellFormed_framePublishLog_iff.mp hwf
    exact congrArg Host.Outcome.next (s.prepare_of_le (by simpa using ⟨ht, hf, Nat.le_of_succ_le_succ hx⟩) (by simp))
  | framePublishPrint n t x =>
    obtain ⟨ht, hx⟩ := wellFormed_framePublishPrint_iff.mp hwf
    exact congrArg Host.Outcome.next (s.prepare_of_le (by simpa using ⟨ht, Nat.le_of_succ_le_succ hx⟩) (by simp))
  | checksum | stuff | buildSubscribe | buildPublishRaw | buildPublishLog | buildPublishPrint | readBurst
  | parsePublish | register | dispatch | poll => exact absurd htable (by decide)
  | framePublishInbound => simp [tableOf, outboundTables] at htable

/-- Settles O39, from the equation of the four rows. -/
theorem outboundFramesArePrepared : Obligations.OutboundFramesArePrepared := by
  intro s f hwf htable
  have hexec := exec_outbound hwf (by simpa [outboundTables] using htable) s
  refine ⟨fun hfit => ?_, fun hfit => ?_⟩
  · rw [hexec, if_pos hfit]; rfl
  · rw [hexec, hfit]; rfl

/-! ### The dispatch with listed answers (R181, R183, R185) -/

/-- The loop over handles for each of which an answer is listed. -/
theorem State.invokeAll_listed (hs : List Handle) (s : State) (h : hs.length ≤ s.consumers.length) :
    s.invokeAll hs =
      { s with
        cbTrace := s.cbTrace ++
          List.zipWith (fun h a => { handle := h, record := s.record, outcome := a.outcome }) hs s.consumers
        busyTrace := s.busyTrace ++ ((s.consumers.take hs.length).map InvokeAnswer.cmdWrites).flatten
        consumers := s.consumers.drop hs.length } := by
  induction hs generalizing s with
  | nil => simp [State.invokeAll]
  | cons x rest ih =>
    cases hc : s.consumers with
    | nil => rw [hc] at h; cases h
    | cons a answers =>
      have hinvoke : s.invoke x =
          { s with
            cbTrace := s.cbTrace ++ [{ handle := x, record := s.record, outcome := a.outcome }]
            busyTrace := s.busyTrace ++ a.cmdWrites
            consumers := answers } := by
        simp [State.invoke, State.invokeAnswer, State.dropInvokeAnswer, hc]
      rw [hc] at h
      rw [State.invokeAll, ih _ (by rw [hinvoke]; exact Nat.le_of_succ_le_succ h), hinvoke]
      simp

theorem State.dispatchAll_listed {s : State} (h : s.regy.length ≤ s.consumers.length) :
    s.dispatchAll =
      { s with
        cbTrace := s.cbTrace ++
          List.zipWith (fun h a => { handle := h, record := s.record, outcome := a.outcome }) s.regy s.consumers
        busyTrace := s.busyTrace ++ ((s.consumers.take s.regy.length).map InvokeAnswer.cmdWrites).flatten
        consumers := s.consumers.drop s.regy.length
        dispatched := BitVec.ofNat 32 s.regy.length } := by
  rw [State.dispatchAll, s.invokeAll_listed s.regy h]

/-! ### The accumulator (R148) -/

@[simp] theorem Reading.accept_setIdle (cap : Option Nat) (r : Reading) (k : Ticks) (b : Byte) :
    Reading.accept cap { r with idle := k } b = { r.accept cap b with idle := k } := by
  unfold Reading.accept
  split <;> rfl

@[simp] theorem Reading.accept_idle (cap : Option Nat) (r : Reading) (b : Byte) : (r.accept cap b).idle = r.idle := by
  unfold Reading.accept
  split <;> rfl

@[simp] theorem Reading.acceptAll_idle (cap : Option Nat) (r : Reading) (bytes : Bytes) :
    (r.acceptAll cap bytes).idle = r.idle := by
  induction bytes generalizing r with
  | nil => rfl
  | cons b rest ih => rw [Reading.acceptAll, ih, Reading.accept_idle]

/-- Bytes that fit are appended, and nothing is marked. -/
theorem Reading.acceptAll_of_fits {cap : Option Nat} {r : Reading} {bytes : Bytes}
    (h : fits cap (r.acc.length + bytes.length) = true) :
    r.acceptAll cap bytes = { r with acc := r.acc ++ bytes } := by
  induction bytes generalizing r with
  | nil => simp [Reading.acceptAll]
  | cons b rest ih =>
    rw [List.length_cons] at h
    have hb : r.accept cap b = { r with acc := r.acc ++ [b] } := if_pos (fits_of_le h (by omega))
    have hrest : fits cap ((r.acc ++ [b]).length + rest.length) = true := fits_of_le h (by simp; omega)
    rw [Reading.acceptAll, hb, ih hrest]
    simp

/-! ### The line during a command (R144, R145, R154) -/

theorem State.drain_going {s : State} {r r' : Reading} {e : LineEvent}
    (h : r.advance s.params.rxMax s.idleTimeout e = .going r') (rest : List Input) :
    s.drain r (.line e :: rest) = s.drain r' rest := by
  rw [State.drain, h]

theorem State.drain_finished {s : State} {r r' : Reading} {e : LineEvent}
    (h : r.advance s.params.rxMax s.idleTimeout e = .finished r') (rest : List Input) :
    s.drain r (.line e :: rest) = { s with inputs := rest }.endReading r' := by
  rw [State.drain, h]

/-- A count of ticks within the timeout fits the idle clock (R141). -/
theorem toNat_ofNat_of_le_ticks {timeout : Ticks} {n : Nat} (h : n ≤ timeout.toNat) :
    (BitVec.ofNat Config.timeW n).toNat = n := by
  rw [BitVec.toNat_ofNat]
  exact Nat.mod_eq_of_lt (Nat.lt_of_le_of_lt h timeout.isLt)

theorem silence_succ (n : Nat) : silence (n + 1) = silence n ++ [.line (.tick none false)] := List.replicate_succ'

/-- Silence within the timeout only advances the idle clock (R145). -/
theorem State.drain_silence (s : State) {r : Reading} (hr : r.idle = 0) {n : Nat} (h : n ≤ s.idleTimeout.toNat)
    (rest : List Input) :
    s.drain r (silence n ++ rest) = s.drain { r with idle := BitVec.ofNat Config.timeW n } rest := by
  induction n generalizing rest with
  | zero => exact congrArg (fun k => s.drain { r with idle := k } rest) hr
  | succ n ih =>
    have hadv : Reading.advance s.params.rxMax s.idleTimeout { r with idle := BitVec.ofNat Config.timeW n }
        (.tick none false) = .going { r with idle := BitVec.ofNat Config.timeW (n + 1) } := by
      simp only [Reading.advance, Reading.wait, toNat_ofNat_of_le_ticks (Nat.le_of_succ_le h), if_neg (Nat.not_lt.mpr h)]
    rw [silence_succ, List.append_assoc, ih (Nat.le_of_succ_le h), List.singleton_append, State.drain_going hadv]

/-- One tick more of silence than the timeout ends the burst (R145). -/
theorem State.drain_silence_ends (s : State) {r : Reading} (hr : r.idle = 0) (rest : List Input) :
    s.drain r (silence (s.idleTimeout.toNat + 1) ++ rest) = { s with inputs := rest }.endReading r := by
  have hadv : Reading.advance s.params.rxMax s.idleTimeout
      { r with idle := BitVec.ofNat Config.timeW s.idleTimeout.toNat } (.tick none false) =
      .finished { r with idle := BitVec.ofNat Config.timeW s.idleTimeout.toNat } := by
    simp only [Reading.advance, Reading.wait, toNat_ofNat_of_le_ticks (Nat.le_refl _), if_pos (Nat.lt_succ_self _)]
  rw [silence_succ, List.append_assoc, s.drain_silence hr (Nat.le_refl _), List.singleton_append,
    State.drain_finished hadv]
  rfl

/-- A byte is taken whatever the idle clock shows, and clears it (R142). -/
theorem Reading.advance_byte {r : Reading} (hr : r.idle = 0) (cap : Option Nat) (timeout k : Ticks) (b : Byte)
    (failed : Bool) :
    Reading.advance cap timeout { r with idle := k } (.tick (some b) failed) = .going (r.accept cap b) := by
  simp only [Reading.advance, Reading.arrive, Reading.acceptAll, Reading.accept_setIdle]
  rw [← hr, ← Reading.accept_idle cap r b]

/-- Bytes with gaps of at most the timeout are all taken, and the idle clock is clear after the last. -/
theorem State.drain_arrivals (s : State) {r : Reading} (hr : r.idle = 0) {line : List (Nat × Byte)}
    (hline : ∀ x ∈ line, x.1 ≤ s.idleTimeout.toNat) (rest : List Input) :
    s.drain r (arrivals line ++ rest) = s.drain (r.acceptAll s.params.rxMax (line.map Prod.snd)) rest := by
  induction line generalizing r with
  | nil => rfl
  | cons x line ih =>
    obtain ⟨hx, hline⟩ := List.forall_mem_cons.mp hline
    rw [arrivals, List.append_assoc, s.drain_silence hr hx, List.cons_append,
      State.drain_going (Reading.advance_byte hr _ _ _ _ _)]
    exact ih (by simpa using hr) hline

/-- Bytes with gaps of at most the timeout, and then silence, are the burst the command ends with (R154). -/
theorem State.drain_burst (s : State) {r : Reading} (hr : r.idle = 0) {line : List (Nat × Byte)}
    (hline : ∀ x ∈ line, x.1 ≤ s.idleTimeout.toNat) (rest : List Input) :
    s.drain r (arrivals line ++ silence (s.idleTimeout.toNat + 1) ++ rest) =
      { s with inputs := rest }.endReading (r.acceptAll s.params.rxMax (line.map Prod.snd)) := by
  rw [List.append_assoc, s.drain_arrivals hr hline, s.drain_silence_ends (by simpa using hr)]

/-! ### The inbound frame row and POLL (R69, R186, R188) -/

/-- Settles O36: both end the reading with the frame's bytes accepted. -/
theorem pollExecutesInboundFrame : Obligations.PollExecutesInboundFrame := by
  intro s r c n y v topic data line rest hline hbytes hin
  have hdrain := State.drain_burst s.startPoll (r := Reading.start true) rfl hline rest
  rw [hbytes] at hdrain
  have hpoll : exec .poll s = .next (s.startPoll.drain (Reading.start true) s.inputs) := rfl
  rw [hpoll, hin]
  exact congrArg Host.Outcome.next hdrain

/-- A burst that holds a record is dispatched (R186, R188). -/
theorem State.handleBurst_of_parse {s : State} {r : Record} (hovf : s.rxOvf = false) (hlen : 4 ≤ s.acc.length)
    (htype : s.acc.getD 0 0 = typePublish) (hparse : parseBody (s.acc.drop 4) = some r) :
    s.handleBurst = (s.setRecord r).dispatchAll.done := by
  rcases s.handleBurst_cases with ⟨hbad, _⟩ | ⟨_, _, _, hnone, _⟩ | ⟨_, _, _, r', hr', he⟩
  · rcases hbad with h | h | h
    · rw [hovf] at h; cases h
    · omega
    · exact absurd htype h
  · rw [hnone] at hparse; cases hparse
  · rw [he, Option.some.inj (hr'.symm.trans hparse)]

/-- The state in which a POLL dispatches: its burst is in `ACC`, and the record parsed from it is valid (R186, R188). -/
def State.recorded (s : State) (burst : Bytes) (r : Record) : State :=
  { s.startPoll with acc := burst, rxOvf := false, activity := .ready }.setRecord r

/-- An inbound publish frame that fits `ACC` is, as a burst, parsed and dispatched. -/
theorem State.receive_inboundFrame (s : State) (r : Byte) (c : Half) (n : NodeId) (y v : Byte) {t d : Bytes}
    (ht : t.length ≤ maxField) (hfit : fits s.params.rxMax (16 + t.length + d.length) = true) :
    s.receive (inboundFrame r c n y v t d) =
      (s.recorded (inboundFrame r c n y v t d) (publishRecord n y v t d)).dispatchAll.done := by
  have hacc : (Reading.start true).acceptAll s.params.rxMax (inboundFrame r c n y v t d) =
      { forPoll := true, idle := 0, acc := inboundFrame r c n y v t d, ovf := false } :=
    Reading.acceptAll_of_fits (by simpa [Reading.start] using hfit)
  have hlen : 4 ≤ (inboundFrame r c n y v t d).length := by rw [length_inboundFrame]; omega
  have hparse : parseBody ((inboundFrame r c n y v t d).drop 4) = some (publishRecord n y v t d) := by
    rw [inboundFrame_eq]; exact parseBody_publishBody ht n y v d
  rw [State.receive, hacc]
  exact State.handleBurst_of_parse
    (s := { s.startPoll with acc := inboundFrame r c n y v t d, rxOvf := false, activity := .ready })
    rfl hlen rfl hparse

/-- Settles O40: the frame is parsed, and its record dispatched with the listed answers. -/
theorem inboundFrameIsDispatched : Obligations.InboundFrameIsDispatched := by
  rintro s r c n y v t d _ ht hfit hcons rfl
  have hdispatch := State.dispatchAll_listed
    (s := s.recorded (inboundFrame r c n y v t d) (publishRecord n y v t d)) hcons
  exact congrArg Host.Outcome.next
    ((s.receive_inboundFrame r c n y v ht hfit).trans (congrArg State.done hdispatch))

end Sys2Proof.Machine
end

section
/-! The checksum: the running value as a left fold (R91 to R93), the byte step split into the high byte that moves down
and the low byte that is fed back (R90), and the feedback register it equals (R96), which is linear over exclusive or. -/

namespace Sys2Proof.Machine

open Sys2Proof Sys2Proof.Safety

/-! ### The fold (R91, R93) -/

theorem checksum_eq_foldl (s : Half) (m : Bytes) : checksum s m = m.foldl crcStep s := by
  induction m generalizing s with
  | nil => rfl
  | cons b rest ih => exact ih (crcStep s b)

theorem checksum_append (s : Half) (a b : Bytes) : checksum s (a ++ b) = checksum (checksum s a) b := by
  simp only [checksum_eq_foldl, List.foldl_append]

/-! ### The byte step (R90) -/

/-- The old high byte moves down; the rest is the step of seed 0 on the byte that is fed back. -/
theorem crcStep_eq (s : Half) (i : Byte) : crcStep s i = (s >>> 8) ^^^ crcStep 0#16 (lo8 s ^^^ i) := by
  simp [crcStep, lo8, BitVec.xor_assoc]

@[simp] theorem crcStep_zero_zero : crcStep 0#16 0#8 = 0#16 := by decide

/-- A byte equal to the low byte of the running value feeds nothing back (R97). -/
theorem crcStep_lo8 (c : Half) : crcStep c (lo8 c) = c >>> 8 := by
  rw [crcStep_eq, BitVec.xor_self, crcStep_zero_zero, BitVec.xor_zero]

/-- The high byte is what the next step meets as low byte. -/
theorem hi8_eq_lo8_shift (c : Half) : hi8 c = lo8 (c >>> 8) := by
  ext k hk
  simp [hi8, lo8]

/-- A value's own two bytes, low byte first, shift it out whole (R97). -/
theorem checksum_own_bytes (c : Half) : checksum c [lo8 c, hi8 c] = 0 := by
  calc checksum c [lo8 c, hi8 c]
      = crcStep (crcStep c (lo8 c)) (hi8 c) := rfl
    _ = (c >>> 8) >>> 8 := by rw [crcStep_lo8, hi8_eq_lo8_shift, crcStep_lo8]
    _ = 0 := by rw [← BitVec.shiftRight_add]; exact BitVec.ushiftRight_eq_zero (by decide)

theorem checksum_zeros (n : Nat) : checksum 0#16 (List.replicate n 0#8) = 0#16 := by
  induction n with
  | zero => rfl
  | succ n ih => rw [List.replicate_succ, checksum_cons, crcStep_zero_zero, ih]

/-! ### The feedback register (R96) -/

/-- The constant that a bit feeds back. -/
def feedback (bit : Bool) : Half := if bit then 0x8408 else 0

@[simp] theorem feedback_false : feedback false = 0#16 := rfl

theorem feedback_xor : ∀ p q : Bool, feedback (p ^^ q) = feedback p ^^^ feedback q := by decide

theorem lfsrShift_eq (c : Half) : lfsrShift c = (c >>> 1) ^^^ feedback (c.getLsbD 0) := by
  cases h : c.getLsbD 0 with
  | true => rw [lfsrShift, if_pos h]; rfl
  | false => rw [lfsrShift, h, if_neg Bool.false_ne_true, feedback_false, BitVec.xor_zero]

/-- The register is linear: shifting and feeding back both respect exclusive or. -/
theorem lfsrShift_xor (a b : Half) : lfsrShift (a ^^^ b) = lfsrShift a ^^^ lfsrShift b := by
  simp only [lfsrShift_eq, BitVec.ushiftRight_xor_distrib, BitVec.getLsbD_xor, feedback_xor]
  ac_rfl

theorem lfsrShifts_xor (n : Nat) (a b : Half) : lfsrShifts n (a ^^^ b) = lfsrShifts n a ^^^ lfsrShifts n b := by
  induction n generalizing a b with
  | zero => rfl
  | succ n ih => rw [lfsrShifts, lfsrShift_xor, ih]; rfl

/-- While only zero bits reach the end of the register, nothing is fed back. -/
theorem lfsrShifts_of_low_zero {n : Nat} {c : Half} (h : ∀ k < n, c.getLsbD k = false) :
    lfsrShifts n c = c >>> n := by
  induction n generalizing c with
  | zero => rfl
  | succ n ih =>
    have hshift : lfsrShift c = c >>> 1 := by
      rw [lfsrShift_eq, h 0 n.succ_pos, feedback_false, BitVec.xor_zero]
    have hlow : ∀ k < n, (c >>> 1).getLsbD k = false := fun k hk => by
      rw [BitVec.getLsbD_ushiftRight]; exact h (1 + k) (by omega)
    rw [lfsrShifts, hshift, ih hlow, ← BitVec.shiftRight_add, Nat.add_comm]

/-- The two forms agree on the byte that is fed back. -/
theorem lfsrShifts_byte : ∀ e : Byte, lfsrShifts 8 (e.setWidth 16) = crcStep 0#16 e := by decide

/-- The register's start value is the seed's high byte and the byte that is fed back. -/
theorem seed_xor_byte (s : Half) (i : Byte) :
    s ^^^ i.setWidth 16 = (s >>> 8) <<< 8 ^^^ (lo8 s ^^^ i).setWidth 16 := by
  ext k hk
  have hbit : s[k] = s.getLsbD k := rfl
  by_cases h : k < 8
  · simp [lo8, h, hbit]
  · have hk8 : 8 + (k - 8) = k := by omega
    simp [lo8, h, hbit, hk8]

theorem crcStep_eq_lfsrShifts (s : Half) (i : Byte) : crcStep s i = lfsrShifts 8 (s ^^^ i.setWidth 16) := by
  have hhigh : lfsrShifts 8 ((s >>> 8) <<< 8) = s >>> 8 := by
    rw [lfsrShifts_of_low_zero fun k hk => by simp [hk]]
    ext k hk
    simpa using fun h => s.lt_of_getLsbD h
  rw [seed_xor_byte, lfsrShifts_xor, hhigh, lfsrShifts_byte, crcStep_eq]

/-! ### The obligations -/

/-- Settles O2: the step and the register split alike into the high byte and the byte fed back; the check values. -/
theorem crcStepIsBitwiseRegister : Obligations.CrcStepIsBitwiseRegister :=
  ⟨crcStep_eq_lfsrShifts, by decide, by decide⟩

/-- Settles O5: the message leaves its checksum, whose own bytes shift it out. -/
theorem checksumSelfResidue : Obligations.ChecksumSelfResidue := by
  intro s m
  rw [checksum_append, checksum_own_bytes]

/-- Settles O1: the loop of R91 is the left fold of the byte step; the worked example. -/
theorem checksumCommandResult : Obligations.ChecksumCommandResult := by
  refine ⟨rfl, fun s => ?_, by decide, by decide⟩
  rw [← checksum_eq_foldl]
  rfl

/-- Settles O3: a left fold over `a ++ b` is the fold over `b` from the fold over `a`. -/
theorem checksumConcatenates : Obligations.ChecksumConcatenates := checksum_append

/-- Settles O4: from seed 0 a zero byte leaves 0, and the concatenation law. -/
theorem checksumEmptyAndLeadingZeros : Obligations.ChecksumEmptyAndLeadingZeros := by
  refine ⟨checksum_nil, crcStep_zero_zero, checksum_zeros, fun n m => ?_⟩
  exact (checksum_append 0 _ m).trans (congrArg (checksum · m) (checksum_zeros n))

end Sys2Proof.Machine
end

section
/-! STUFF and its encoder (R100 to R112). The input is read as the runs of non-delimiters that the encoder cuts it into
(`BlocksOf`); the parse of the output, its length and what it stands for are inductions over that reading. -/

namespace Sys2Proof.Machine

open Sys2Proof Sys2Proof.Safety

/-! ### One run of the encoder -/

/-- Non-delimiters that stay below the cap become pending (R101). -/
theorem stuffFrom_append {p d : Bytes} (rest : Bytes) (hd : delimiter ∉ d) (hlen : p.length + d.length < 254) :
    stuffFrom p (d ++ rest) = stuffFrom (p ++ d) rest := by
  induction d generalizing p with
  | nil => rw [List.nil_append, List.append_nil]
  | cons x d ih =>
    obtain ⟨hx, hd⟩ := List.ne_and_not_mem_of_not_mem_cons hd
    rw [List.length_cons] at hlen
    have hcap : p.length + 1 ≠ segmentCap := by simp only [segmentCap]; omega
    rw [List.cons_append, stuffFrom_cons, if_neg (Ne.symm hx), if_neg hcap,
      ih hd (by rw [List.length_append, List.length_singleton]; omega), List.append_assoc, List.singleton_append]

/-- A last run below the cap is one segment, the flush (R104). -/
theorem stuff_of_short {d : Bytes} (hd : delimiter ∉ d) (hlen : d.length < 254) : stuff d = segment d := by
  simpa [stuff] using stuffFrom_append (p := []) [] hd (by simpa using hlen)

theorem segment_of_length {d : Bytes} {n : Nat} (h : d.length = n) : segment d = BitVec.ofNat 8 (n + 1) :: d := by
  rw [segment, h]

/-- A run below the cap and its delimiter are one segment (R102). -/
theorem stuff_append_delimiter {d : Bytes} (rest : Bytes) (hd : delimiter ∉ d) (hlen : d.length < 254) :
    stuff (d ++ delimiter :: rest) = segment d ++ stuff rest := by
  rw [stuff, stuffFrom_append _ hd (by simpa using hlen), stuffFrom_cons, if_pos rfl, List.nil_append, stuff]

/-- 254 non-delimiters are one segment, whatever follows (R103). -/
theorem stuff_append_of_full {d : Bytes} (rest : Bytes) (hd : delimiter ∉ d) (hlen : d.length = 254) :
    stuff (d ++ rest) = segment d ++ stuff rest := by
  obtain rfl | ⟨q, x, rfl⟩ := d.eq_nil_or_concat'
  · exact absurd hlen (by decide)
  have hcap : q.length + 1 = segmentCap := List.length_append.symm.trans hlen
  have hlt : q.length < 254 := Nat.lt_of_succ_le hcap.le
  have hq : delimiter ∉ q := fun h => hd (List.mem_append_left _ h)
  have hx : x ≠ delimiter := fun h => hd (by simp [h])
  rw [stuff, List.append_assoc, stuffFrom_append _ hq (by simpa using hlt), List.nil_append, List.singleton_append,
    stuffFrom_cons, if_neg hx, if_pos hcap, stuff]

/-! ### Blocks -/

/-- The block a run goes out as: the two parts of its `segment`. -/
def blockOf (d : Bytes) : Byte × Bytes := (BitVec.ofNat 8 (d.length + 1), d)

/-- The bytes of a sequence of blocks. -/
def blockBytes (bs : List (Byte × Bytes)) : Bytes := (bs.map (fun x => x.1 :: x.2)).flatten

@[simp] theorem blockBytes_nil : blockBytes [] = [] := rfl

@[simp] theorem blockBytes_cons (x : Byte × Bytes) (bs : List (Byte × Bytes)) :
    blockBytes (x :: bs) = x.1 :: (x.2 ++ blockBytes bs) := rfl

theorem segment_append_blockBytes (d : Bytes) (bs : List (Byte × Bytes)) :
    segment d ++ blockBytes bs = blockBytes (blockOf d :: bs) := rfl

/-- The code of a run is its length plus one: no run is too long for a code. -/
theorem toNat_code_blockOf {d : Bytes} (h : d.length ≤ 254) : (blockOf d).1.toNat = d.length + 1 := by
  simp only [blockOf, BitVec.toNat_ofNat]
  omega

/-- A full run has code 0xFF (R103). -/
theorem code_blockOf_of_full {d : Bytes} (h : d.length = 254) : (blockOf d).1 = 0xFF := by rw [blockOf, h]; rfl

/-- No other run has code 0xFF. -/
theorem code_blockOf_ne_of_short {d : Bytes} (h : d.length < 254) : (blockOf d).1 ≠ 0xFF := by
  intro hcode
  have hlen := toNat_code_blockOf h.le
  rw [hcode] at hlen
  exact h.ne (Nat.succ_inj.mp hlen).symm

/-- Blocks with the same bytes are the same blocks: each code says where the next one stands (R105). -/
theorem eq_of_blockBytes_eq {bs bs' : List (Byte × Bytes)} (h : ∀ x ∈ bs, x.2.length = x.1.toNat - 1)
    (h' : ∀ x ∈ bs', x.2.length = x.1.toNat - 1) (heq : blockBytes bs = blockBytes bs') : bs = bs' := by
  induction bs generalizing bs' with
  | nil =>
    cases bs' with
    | nil => rfl
    | cons y ys => exact absurd heq (by simp)
  | cons x xs ih =>
    cases bs' with
    | nil => exact absurd heq (by simp)
    | cons y ys =>
      rw [List.forall_mem_cons] at h h'
      obtain ⟨hcode, htail⟩ := List.cons.inj heq
      obtain ⟨hlits, hrest⟩ := List.append_inj htail (by rw [h.1, h'.1, hcode])
      rw [Prod.ext hcode hlits, ih h.2 h'.2 hrest]

/-- The literals a block still lacks are read in full, whatever blocks follow. -/
theorem splitBlocks_append {d e : Bytes} {bs : List (Byte × Bytes)} (hd : delimiter ∉ d)
    (he : splitBlocks 0 e = some ([], bs)) : splitBlocks d.length (d ++ e) = some (d, bs) := by
  induction d with
  | nil => exact he
  | cons x d ih =>
    obtain ⟨hx, hd⟩ := List.ne_and_not_mem_of_not_mem_cons hd
    rw [List.length_cons, List.cons_append, splitBlocks, if_neg (Ne.symm hx), ih hd]

/-- The grammar of a block (R111): a code byte other than 0x00 and one literal fewer than the code, none of them 0x00. -/
structure IsBlock (x : Byte × Bytes) : Prop where
  code : 1 ≤ x.1.toNat
  length : x.2.length = x.1.toNat - 1
  literals : delimiter ∉ x.2

theorem IsBlock.code_ne_delimiter {x : Byte × Bytes} (h : IsBlock x) : x.1 ≠ delimiter :=
  fun hx => absurd h.code (by rw [hx]; decide)

theorem isBlock_blockOf {d : Bytes} (hd : delimiter ∉ d) (hlen : d.length ≤ 254) : IsBlock (blockOf d) := by
  have hcode := toNat_code_blockOf hlen
  exact ⟨by omega, by rw [hcode]; rfl, hd⟩

/-- The parser of R111 reads back any sequence of blocks. -/
theorem splitBlocks_blockBytes {bs : List (Byte × Bytes)} (h : ∀ x ∈ bs, IsBlock x) :
    splitBlocks 0 (blockBytes bs) = some ([], bs) := by
  induction bs with
  | nil => rfl
  | cons x bs ih =>
    rw [List.forall_mem_cons] at h
    obtain ⟨hx, hbs⟩ := h
    rw [blockBytes_cons, splitBlocks, if_neg hx.code_ne_delimiter, ← hx.length,
      splitBlocks_append hx.literals (ih hbs)]

theorem delimiter_notMem_blockBytes {bs : List (Byte × Bytes)} (h : ∀ x ∈ bs, IsBlock x) :
    delimiter ∉ blockBytes bs := by
  induction bs with
  | nil => exact List.not_mem_nil
  | cons x bs ih =>
    rw [List.forall_mem_cons] at h
    obtain ⟨hx, hbs⟩ := h
    simp [hx.code_ne_delimiter.symm, hx.literals, ih hbs]

/-- A block that is not the last stands for its literals and, below 0xFF, for a delimiter (R71). -/
theorem unblock_cons (x : Byte × Bytes) {bs : List (Byte × Bytes)} (h : bs ≠ []) :
    unblock (x :: bs) = x.2 ++ (if x.1 = 0xFF then [] else [delimiter]) ++ unblock bs := by
  obtain ⟨y, ys, rfl⟩ := List.exists_cons_of_ne_nil h
  rfl

/-! ### The input as runs -/

/-- `b` cut into runs, and the block of each: a last run below the cap, a run below the cap with the delimiter after it
(R102), or a full run (R103). -/
inductive BlocksOf : Bytes → List (Byte × Bytes) → Prop
  | last {d : Bytes} (hd : delimiter ∉ d) (hlen : d.length < 254) : BlocksOf d [blockOf d]
  | delimited {d b : Bytes} {bs : List (Byte × Bytes)} (hd : delimiter ∉ d) (hlen : d.length < 254)
      (h : BlocksOf b bs) : BlocksOf (d ++ delimiter :: b) (blockOf d :: bs)
  | forced {d b : Bytes} {bs : List (Byte × Bytes)} (hd : delimiter ∉ d) (hlen : d.length = 254)
      (h : BlocksOf b bs) : BlocksOf (d ++ b) (blockOf d :: bs)

/-- The scan of R101 cuts every input: pending bytes begin its first run. -/
theorem exists_blocksOf_append (b : Bytes) {p : Bytes} (hp : delimiter ∉ p) (hlen : p.length < 254) :
    ∃ bs, BlocksOf (p ++ b) bs := by
  induction b generalizing p with
  | nil => exact ⟨_, by rw [List.append_nil]; exact .last hp hlen⟩
  | cons x b ih =>
    by_cases hx : x = delimiter
    · obtain ⟨bs, h⟩ := ih List.not_mem_nil (by decide : ([] : Bytes).length < 254)
      subst hx
      exact ⟨_, .delimited hp hlen h⟩
    · have hpx : delimiter ∉ p ++ [x] := by simp [hp, Ne.symm hx]
      have hlen' : (p ++ [x]).length = p.length + 1 := List.length_append
      rw [List.append_cons]
      rcases Nat.lt_or_eq_of_le hlen with hlt | heq
      · exact ih hpx (hlen'.trans_lt hlt)
      · obtain ⟨bs, h⟩ := ih List.not_mem_nil (by decide : ([] : Bytes).length < 254)
        exact ⟨_, .forced hpx (hlen'.trans heq) h⟩

theorem exists_blocksOf (b : Bytes) : ∃ bs, BlocksOf b bs :=
  exists_blocksOf_append b List.not_mem_nil (by decide)

namespace BlocksOf

variable {b : Bytes} {bs : List (Byte × Bytes)}

/-- The encoder puts out the blocks of its input. -/
theorem stuff_eq (h : BlocksOf b bs) : stuff b = blockBytes bs := by
  induction h with
  | last hd hlen => rw [stuff_of_short hd hlen, ← segment_append_blockBytes, blockBytes_nil, List.append_nil]
  | delimited hd hlen _ ih => rw [stuff_append_delimiter _ hd hlen, ih, segment_append_blockBytes]
  | forced hd hlen _ ih => rw [stuff_append_of_full _ hd hlen, ih, segment_append_blockBytes]

theorem ne_nil (h : BlocksOf b bs) : bs ≠ [] := by cases h <;> exact List.cons_ne_nil _ _

theorem isBlock (h : BlocksOf b bs) : ∀ x ∈ bs, IsBlock x := by
  induction h with
  | last hd hlen => exact List.forall_mem_singleton.mpr (isBlock_blockOf hd hlen.le)
  | delimited hd hlen _ ih => exact List.forall_mem_cons.mpr ⟨isBlock_blockOf hd hlen.le, ih⟩
  | forced hd hlen _ ih => exact List.forall_mem_cons.mpr ⟨isBlock_blockOf hd hlen.le, ih⟩

/-- The output parses into the blocks of the input (R111). -/
theorem blocks_stuff (h : BlocksOf b bs) : blocks (stuff b) = some bs := by
  rw [h.stuff_eq, blocks, splitBlocks_blockBytes h.isBlock]

/-- The blocks stand for the input (R71, R108). -/
theorem unblock_eq (h : BlocksOf b bs) : unblock bs = b := by
  induction h with
  | last => rfl
  | delimited _ hlen h ih =>
    rw [unblock_cons _ h.ne_nil, if_neg (code_blockOf_ne_of_short hlen), ih, List.append_assoc, List.singleton_append]
    rfl
  | forced _ hlen h ih =>
    rw [unblock_cons _ h.ne_nil, if_pos (code_blockOf_of_full hlen), ih, List.append_nil]
    rfl

/-- Each block's literals are bytes of the input, in a row. -/
theorem literals_isInfix (h : BlocksOf b bs) : ∀ x ∈ bs, x.2 <:+: b := by
  induction h with
  | last => exact List.forall_mem_singleton.mpr List.infix_rfl
  | delimited _ _ _ ih =>
    refine List.forall_mem_cons.mpr ⟨(List.prefix_append _ _).isInfix, fun x hx => ?_⟩
    exact ((ih x hx).trans (List.suffix_cons _ _).isInfix).trans (List.suffix_append _ _).isInfix
  | forced _ _ _ ih =>
    refine List.forall_mem_cons.mpr ⟨(List.prefix_append _ _).isInfix, fun x hx => ?_⟩
    exact (ih x hx).trans (List.suffix_append _ _).isInfix

/-- The flush after a forced block is what keeps 0xFF from being the last code (R111). -/
theorem getLast?_code_ne (h : BlocksOf b bs) : ∀ x, bs.getLast? = some x → x.1 ≠ 0xFF := by
  induction h with
  | last _ hlen =>
    rintro x ⟨⟩
    exact code_blockOf_ne_of_short hlen
  | delimited _ _ h ih | forced _ _ h ih =>
    obtain ⟨y, ys, rfl⟩ := List.exists_cons_of_ne_nil h.ne_nil
    simpa using ih

/-- Each block below 0xFF took a delimiter of the input, but for the last (R111). -/
theorem count_delimiter (h : BlocksOf b bs) : b.count delimiter + 1 = bs.countP (·.1 ≠ 0xFF) := by
  induction h with
  | last hd hlen =>
    rw [List.count_eq_zero.mpr hd, List.countP_cons_of_pos (by simpa using code_blockOf_ne_of_short hlen),
      List.countP_nil]
  | delimited hd hlen _ ih =>
    rw [List.count_append, List.count_eq_zero.mpr hd, Nat.zero_add, List.count_cons_self, ih,
      List.countP_cons_of_pos (by simpa using code_blockOf_ne_of_short hlen)]
  | forced hd hlen _ ih =>
    rw [List.count_append, List.count_eq_zero.mpr hd, Nat.zero_add, ih,
      List.countP_cons_of_neg (by simp [code_blockOf_of_full hlen])]

/-- A literal is copied, a delimiter becomes a code byte, and so do the flush and each forced block (R105). -/
theorem length_stuff (h : BlocksOf b bs) : (stuff b).length = b.length + 1 + bs.countP (·.1 = 0xFF) := by
  induction h with
  | last hd hlen =>
    rw [stuff_of_short hd hlen, length_segment,
      List.countP_cons_of_neg (by simpa using code_blockOf_ne_of_short hlen), List.countP_nil, Nat.add_zero]
  | delimited hd hlen _ ih =>
    rw [stuff_append_delimiter _ hd hlen, List.length_append, length_segment, ih, List.length_append, List.length_cons,
      List.countP_cons_of_neg (by simpa using code_blockOf_ne_of_short hlen)]
    omega
  | forced hd hlen _ ih =>
    rw [stuff_append_of_full _ hd hlen, List.length_append, length_segment, ih, List.length_append,
      List.countP_cons_of_pos (by simp [code_blockOf_of_full hlen])]
    omega

theorem length_stuff_eq_iff (h : BlocksOf b bs) : (stuff b).length = b.length + 1 ↔ ∀ x ∈ bs, x.1 ≠ 0xFF := by
  rw [h.length_stuff, Nat.add_eq_left, List.countP_eq_zero]
  simp only [decide_eq_true_eq, ne_eq]

/-- A block with code 0xFF holds a run of 254 bytes of the input. -/
theorem code_ne_of_runs_le (h : BlocksOf b bs)
    (hruns : ∀ run : Bytes, run <:+: b → delimiter ∉ run → run.length ≤ 253) : ∀ x ∈ bs, x.1 ≠ 0xFF := by
  intro x hx hcode
  have hblock := h.isBlock x hx
  have hshort := hruns x.2 (h.literals_isInfix x hx) hblock.literals
  have hfull : x.2.length = 254 := by rw [hblock.length, hcode]; rfl
  omega

/-- The output starts with the first block's code. -/
theorem head?_stuff (h : BlocksOf b bs) : (stuff b).head? = bs.head?.map Prod.fst := by
  obtain ⟨x, xs, rfl⟩ := List.exists_cons_of_ne_nil h.ne_nil
  rw [h.stuff_eq]
  rfl

end BlocksOf

theorem delimiter_notMem_stuff (b : Bytes) : delimiter ∉ stuff b := by
  obtain ⟨bs, h⟩ := exists_blocksOf b
  rw [h.stuff_eq]
  exact delimiter_notMem_blockBytes h.isBlock

/-- The first 254 bytes of a longer run are a forced block (R103, R112). -/
theorem stuff_of_long {d : Bytes} (hd : delimiter ∉ d) (hlen : 254 ≤ d.length) :
    stuff d = 0xFF :: (d.take 254 ++ stuff (d.drop 254)) := by
  have htake : (d.take 254).length = 254 := List.length_take_of_le hlen
  calc stuff d = stuff (d.take 254 ++ d.drop 254) := by rw [List.take_append_drop]
    _ = segment (d.take 254) ++ stuff (d.drop 254) :=
      stuff_append_of_full _ (fun h => hd (List.mem_of_mem_take h)) htake
    _ = 0xFF :: (d.take 254 ++ stuff (d.drop 254)) := by rw [segment_of_length htake]; rfl

/-! ### The obligations -/

/-- Settles O6: the encoder's output has no delimiter and is within `stuffed_max`; the worked example. -/
theorem stuffCommandResult : Obligations.StuffCommandResult := by
  refine ⟨rfl, fun s => rfl, fun s => delimiter_notMem_stuff _, fun s m hm => ?_, by decide⟩
  have h := length_stuff_le s.in0Bytes
  rw [stuffedMax, State.length_in0Bytes] at h
  omega

/-- Settles O7: the length counts the codes 0xFF, which only a run of 254 gives. -/
theorem stuffedOutputBounds : Obligations.StuffedOutputBounds := by
  intro b
  obtain ⟨bs, h⟩ := exists_blocksOf b
  have hlen := h.length_stuff
  refine ⟨delimiter_notMem_stuff b, by omega, length_stuff_le b, ?_,
    fun hruns => h.length_stuff_eq_iff.mpr (h.code_ne_of_runs_le hruns)⟩
  refine ⟨bs, h.blocks_stuff, h.head?_stuff, h.length_stuff_eq_iff, fun other hother heq => ?_⟩
  rw [h.stuff_eq] at heq
  exact (eq_of_blockBytes_eq (fun x hx => (h.isBlock x hx).length) (fun x hx => (hother x hx).2) heq).symm

/-- Settles O8: the output parses into the blocks of the input, and these stand for it. -/
theorem unstuffRecoversInput : Obligations.UnstuffRecoversInput := by
  intro b
  obtain ⟨bs, h⟩ := exists_blocksOf b
  simp only [unstuff, h.blocks_stuff, h.unblock_eq]

/-- Settles O9: the blocks are those of the input's runs. -/
theorem stuffedOutputGrammar : Obligations.StuffedOutputGrammar := by
  intro b
  obtain ⟨bs, h⟩ := exists_blocksOf b
  refine ⟨bs, h.blocks_stuff, h.ne_nil, h.stuff_eq, fun x hx => ?_, h.getLast?_code_ne, h.unblock_eq, ?_⟩
  · obtain ⟨hcode, hlength, hliterals⟩ := h.isBlock x hx
    exact ⟨hcode, hlength, hliterals⟩
  · exact h.count_delimiter.trans List.countP_eq_length_filter

/-- Settles O10: runs below 254 are one segment, longer ones begin with a forced block. -/
theorem stuffCornerCases : Obligations.StuffCornerCases := by
  refine ⟨rfl, by decide, fun x hx => ?_, by decide, by decide, fun d hd => ?_⟩
  · exact stuff_of_short (List.not_mem_cons_of_ne_of_not_mem hx.symm List.not_mem_nil) (by simp)
  have hdrop : delimiter ∉ d.drop 254 := fun h => hd (List.mem_of_mem_drop h)
  have htail : (d.drop 254).length = d.length - 254 := List.length_drop
  refine ⟨fun hlen => ?_, fun hlen => ?_, fun hlen => ?_, fun hlen => ?_, fun hlen => ?_⟩
  · have hshort : d.length < 254 := by omega
    exact ⟨(stuff_of_short hd hshort).trans (segment_of_length hlen),
      (stuff_append_delimiter [] hd hshort).trans (by rw [segment_of_length hlen]; rfl)⟩
  · refine ⟨?_, (stuff_append_of_full [delimiter] hd hlen).trans (by rw [segment_of_length hlen]; rfl)⟩
    have h := stuff_append_of_full [] hd hlen
    rwa [List.append_nil, segment_of_length hlen] at h
  · rw [hlen] at htail
    rw [stuff_of_long hd (by omega), stuff_of_short hdrop (by omega), segment_of_length htail]
    rfl
  · rw [hlen] at htail
    have h : stuff d = 0xFF :: d.take 254 ++ 0x2F :: d.drop 254 := by
      rw [stuff_of_long hd (by omega), stuff_of_short hdrop (by omega), segment_of_length htail]
      rfl
    exact ⟨h, by rw [h]; simp [hlen]⟩
  · rw [hlen] at htail
    have hrest : (d.drop 254).drop 254 = [] := List.drop_of_length_le htail.le
    rw [stuff_of_long hd (by omega), stuff_of_long hdrop htail.ge, hrest, List.take_of_length_le htail.le]
    exact (List.append_assoc (0xFF :: d.take 254) (0xFF :: d.drop 254) [0x01]).symm

end Sys2Proof.Machine
end

section
/-! The frame builder (R115 to R127). The four commands differ in their operands' limits and in the frame they assemble;
everything else is one operation, which refuses with a length or offers the finished frame, and each rule about what a
builder leaves is a fact about that offer. -/

namespace Sys2Proof.Machine

open Sys2Proof Sys2Proof.Safety

/-! ### What a builder reads -/

theorem mem_builders_iff {i : Instr} :
    i ∈ builders ↔ i = .buildSubscribe ∨ i = .buildPublishRaw ∨ i = .buildPublishLog ∨ i = .buildPublishPrint := by
  simp [builders]

/-- The operand lengths a builder checks, in their order, each with its limit (R118); none for another instruction. -/
@[simp] def State.operandLimits (s : State) : Instr → List (Nat × Nat)
  | .buildSubscribe | .buildPublishRaw => [(s.in0.len, 65535)]
  | .buildPublishLog => [(s.in0.len, 65535), (s.in1.len, 65535), (s.in2.len, 65534)]
  | .buildPublishPrint => [(s.in0.len, 65535), (s.in2.len, 65534)]
  | _ => []

/-- The frame a builder assembles, before FINALIZE (R119 to R122); none for another instruction. -/
@[simp] def State.builderFrame (s : State) : Instr → Bytes
  | .buildSubscribe => subscribeFrame s.in0Bytes
  | .buildPublishRaw => rawFrame s.nodeId s.in0Bytes s.ver s.in1Bytes
  | .buildPublishLog => logFrame s.nodeId s.in0Bytes s.in1Bytes s.in2Bytes
  | .buildPublishPrint => printFrame s.nodeId s.in0Bytes s.in2Bytes
  | _ => []

/-- The `type` byte of a builder's frame (R61). -/
def builderType (i : Instr) : Byte := if i = .buildSubscribe then typeSubscribe else typePublish

theorem State.builderFrame_header {i : Instr} (hi : i ∈ builders) (s : State) :
    ∃ body, s.builderFrame i = header (builderType i) ++ body := by
  obtain rfl | rfl | rfl | rfl := mem_builders_iff.mp hi
  · exact subscribeFrame_header _
  · exact rawFrame_header _ _ _ _
  · exact logFrame_header _ _ _ _
  · exact printFrame_header _ _ _

/-! ### The write (R117) -/

theorem State.dropTxAnswer_assemble (s : State) (frame : Bytes) :
    (s.assemble frame).dropTxAnswer =
      { s.dropTxAnswer with fbuf := finalizeFrame frame, txbuf := wireImage (finalizeFrame frame) } := by
  unfold State.dropTxAnswer
  cases h : s.txAnswers <;> simp [State.assemble, h]

/-- A frame assembled and transmitted is the finished frame offered: the count is cut to the wire image. -/
theorem State.transmit_assemble (s : State) (frame : Bytes) :
    (s.assemble frame).transmit = s.offer (finalizeFrame frame) := by
  have hanswer : (s.assemble frame).txAnswer = s.txAnswer := rfl
  have hwire : (s.assemble frame).txbuf = stuff (finalizeFrame frame) ++ [0x00] := rfl
  have htrace : (s.assemble frame).txTrace = s.txTrace := rfl
  rw [State.transmit_eq, State.dropTxAnswer_assemble, hanswer, hwire, htrace, State.offer]
  by_cases h : (stuff (finalizeFrame frame) ++ [0x00]).length ≤ s.txAnswer
  · rw [Nat.min_eq_right h, List.take_length, List.take_of_length_le h]
    simp only [if_pos h, if_true]
    rfl
  · have hlt := Nat.lt_of_not_le h
    rw [Nat.min_eq_left hlt.le]
    simp only [if_neg h, if_neg hlt.ne]
    rfl

/-! ### The builder commands -/

/-- An offered frame ends with `OK` or `ERR_TX_SHORT`, never with `ERR_LENGTH`. -/
theorem State.status_offer_ne (s : State) (frame : Bytes) : (s.offer frame).status ≠ 0x03 := by
  simp only [State.offer]
  split <;> decide

/-- Everything a builder does (R115): it checks its lengths and builds its frame. -/
theorem exec_builder {i : Instr} (hi : i ∈ builders) (s : State) :
    exec i s = .next (s.build
      (lengthCheck s.params.frameMax (s.operandLimits i) (s.builderFrame i).length) (s.builderFrame i)) := by
  obtain rfl | rfl | rfl | rfl := mem_builders_iff.mp hi
  · simp [exec, execBuildSubscribe, subscribeCheck]
  · simp [exec, execBuildPublishRaw, rawCheck]
  · simp [exec, execBuildPublishLog, logCheck]
  · simp [exec, execBuildPublishPrint, printCheck]

/-- Every operand is within its limit and the frame within `FRAME_MAX`: what R118 asks of a builder. -/
def State.FrameFits (s : State) (i : Instr) : Prop :=
  (∀ o ∈ s.operandLimits i, o.1 ≤ o.2) ∧ fits s.params.frameMax (s.builderFrame i).length = true

section
variable {i : Instr} {s : State}

/-- A builder that is not refused leaves its finished frame offered (R116, R117). -/
theorem exec_builder_of_fits (hi : i ∈ builders) (h : s.FrameFits i) :
    exec i s = .next (s.offer (finalizeFrame (s.builderFrame i))) := by
  rw [exec_builder hi, (lengthCheck_eq_none_iff _ _ _).mpr h, ← State.transmit_assemble]
  rfl

/-- A builder is refused with the length its check answers (R118). -/
theorem exec_builder_of_check (hi : i ∈ builders) {n : Nat}
    (h : lengthCheck s.params.frameMax (s.operandLimits i) (s.builderFrame i).length = some n) :
    exec i s = .next (s.tooLong n) := by
  rw [exec_builder hi, h]
  rfl

theorem exec_builder_of_not_fits (hi : i ∈ builders) (h : ¬s.FrameFits i) : ∃ n, exec i s = .next (s.tooLong n) := by
  obtain ⟨n, hn⟩ := Option.ne_none_iff_exists'.mp (mt (lengthCheck_eq_none_iff _ _ _).mp h)
  exact ⟨n, exec_builder_of_check hi hn⟩

/-- After a builder command that was not refused the finished frame has been offered. -/
theorem exec_builder_offers (hi : i ∈ builders) (s : State) :
    ∃ t, exec i s = .next t ∧ (t.status ≠ 0x03 → t = s.offer (finalizeFrame (s.builderFrame i))) := by
  by_cases h : s.FrameFits i
  · exact ⟨_, exec_builder_of_fits hi h, fun _ => rfl⟩
  · obtain ⟨n, hn⟩ := exec_builder_of_not_fits hi h
    exact ⟨_, hn, fun hstatus => absurd rfl hstatus⟩

/-! ### The length checks (R118) -/

theorem frameFits_buildSubscribe_iff :
    s.FrameFits .buildSubscribe ↔ s.in0.len ≤ 65535 ∧ fits s.params.frameMax (6 + s.in0.len) = true := by
  simp [State.FrameFits]

theorem frameFits_buildPublishRaw_iff :
    s.FrameFits .buildPublishRaw ↔
      s.in0.len ≤ 65535 ∧ fits s.params.frameMax (17 + s.in0.len + s.in1.len) = true := by
  simp [State.FrameFits]

theorem frameFits_buildPublishLog_iff :
    s.FrameFits .buildPublishLog ↔ (s.in0.len ≤ 65535 ∧ s.in1.len ≤ 65535 ∧ s.in2.len ≤ 65534) ∧
      fits s.params.frameMax (29 + s.in0.len + s.in1.len + s.in2.len) = true := by
  simp [State.FrameFits]

theorem frameFits_buildPublishPrint_iff :
    s.FrameFits .buildPublishPrint ↔ (s.in0.len ≤ 65535 ∧ s.in2.len ≤ 65534) ∧
      fits s.params.frameMax (29 + s.in0.len + s.in2.len) = true := by
  simp [State.FrameFits]

end

/-- The first operand above its limit is the one reported. -/
theorem lengthCheck_of_lt (cap : Option Nat) {ops rest : List (Nat × Nat)} {len limit : Nat} (total : Nat)
    (hops : ∀ o ∈ ops, o.1 ≤ o.2) (h : limit < len) :
    lengthCheck cap (ops ++ (len, limit) :: rest) total = some len := by
  induction ops with
  | nil => rw [List.nil_append, lengthCheck, if_pos h]
  | cons o ops ih =>
    obtain ⟨ho, hops⟩ := List.forall_mem_cons.mp hops
    rw [List.cons_append, lengthCheck, if_neg (Nat.not_lt.mpr ho), ih hops]

section
variable {i : Instr} {s : State}

theorem exec_builder_of_operand (hi : i ∈ builders) {ops rest : List (Nat × Nat)} {len limit : Nat}
    (hsplit : s.operandLimits i = ops ++ (len, limit) :: rest) (hops : ∀ o ∈ ops, o.1 ≤ o.2) (h : limit < len) :
    exec i s = .next (s.tooLong len) :=
  exec_builder_of_check hi (by rw [hsplit, lengthCheck_of_lt _ _ hops h])

theorem exec_builder_of_total (hi : i ∈ builders) {total : Nat} (htotal : (s.builderFrame i).length = total)
    (hops : ∀ o ∈ s.operandLimits i, o.1 ≤ o.2) (h : fits s.params.frameMax total = false) :
    exec i s = .next (s.tooLong total) :=
  exec_builder_of_check hi (by rw [lengthCheck_of_le hops, htotal, h]; rfl)

end

/-- Settles O16, check by check: an operand with the operands before it within their limits, or the frame. -/
theorem buildersRefuseWhatDoesNotFit : Obligations.BuildersRefuseWhatDoesNotFit := by
  rintro s t d f x rfl rfl rfl rfl
  refine ⟨fun ht i hi => ?_, fun ht hf => ?_, fun ht hf hx => ?_, fun ht hx => ?_, fun ht hfit => ?_, fun ht hfit => ?_,
    fun ht hf hx hfit => ?_, fun ht hx hfit => ?_⟩
  · have hfirst : ∃ rest, s.operandLimits i = (s.in0.len, 65535) :: rest := by
      obtain rfl | rfl | rfl | rfl := mem_builders_iff.mp hi <;> exact ⟨_, rfl⟩
    obtain ⟨rest, hrest⟩ := hfirst
    exact exec_builder_of_operand (ops := []) hi hrest (by simp) ht
  · exact exec_builder_of_operand (ops := [(s.in0.len, 65535)]) (by decide) rfl (by simpa using ht) hf
  · exact exec_builder_of_operand (ops := [(s.in0.len, 65535), (s.in1.len, 65535)]) (by decide) rfl
      (by simpa using ⟨ht, hf⟩) (Nat.lt_of_succ_lt_succ hx)
  · exact exec_builder_of_operand (ops := [(s.in0.len, 65535)]) (by decide) rfl (by simpa using ht)
      (Nat.lt_of_succ_lt_succ hx)
  · exact exec_builder_of_total (by decide) (by simp) (by simpa using ht) hfit
  · exact exec_builder_of_total (by decide) (by simp) (by simpa using ht) hfit
  · exact exec_builder_of_total (by decide) (by simp)
      (by simpa using ⟨ht, hf, Nat.le_of_succ_le_succ hx⟩) hfit
  · exact exec_builder_of_total (by decide) (by simp) (by simpa using ⟨ht, Nat.le_of_succ_le_succ hx⟩) hfit

/-! ### The finished frame (R116) -/

/-- FINALIZE of a header and the rest, with the checksum of the frame whose field is zero. -/
theorem finalizeFrame_header {frame rest : Bytes} {type : Byte} {ck : Half} (hframe : frame = header type ++ rest)
    (hck : ck = checksum 0x0000 ([type, 0x00, 0x00, 0x00] ++ rest)) :
    finalizeFrame frame = [type, 0x00, lo8 ck, hi8 ck] ++ rest := by
  subst hframe hck
  rfl

/-- Settles O11: the subscribe frame finished and offered, or refused; the worked example. -/
theorem buildSubscribeResult : Obligations.BuildSubscribeResult := by
  refine ⟨rfl, ?_, fun s h => ?_, by decide, by decide, by decide, by decide⟩
  · rintro s topic rest ck rfl ht hfit rfl hck
    rw [State.length_in0Bytes] at ht hfit
    rw [exec_builder_of_fits (by decide) (frameFits_buildSubscribe_iff.mpr ⟨ht, hfit⟩), State.builderFrame,
      finalizeFrame_header (by simp [subscribeFrame, lenField, typeSubscribe]) hck]
  · refine exec_builder_of_not_fits (by decide) fun hfits => ?_
    obtain ⟨ht, hfit⟩ := frameFits_buildSubscribe_iff.mp hfits
    simp only [hfit, Bool.true_eq_false, or_false] at h
    omega

/-- Settles O12: the raw publish frame finished and offered, or refused; the worked example. -/
theorem buildPublishRawResult : Obligations.BuildPublishRawResult := by
  refine ⟨rfl, ?_, fun s h => ?_, by decide +kernel, by decide +kernel⟩
  · rintro s topic data rest ck rfl rfl ht hfit rfl hck
    rw [State.length_in0Bytes] at ht hfit
    rw [State.length_in1Bytes] at hfit
    rw [exec_builder_of_fits (by decide) (frameFits_buildPublishRaw_iff.mpr ⟨ht, hfit⟩), State.builderFrame,
      finalizeFrame_header (by simp [rawFrame, pubHdr, lenField, typePublish]) hck]
  · refine exec_builder_of_not_fits (by decide) fun hfits => ?_
    obtain ⟨ht, hfit⟩ := frameFits_buildPublishRaw_iff.mp hfits
    simp only [hfit, Bool.true_eq_false, or_false] at h
    omega

/-- Settles O13: the log frame finished and offered, or refused; the worked example. -/
theorem buildPublishLogResult : Obligations.BuildPublishLogResult := by
  refine ⟨rfl, ?_, fun s h => ?_, by decide +kernel⟩
  · rintro s topic filename text rest ck rfl rfl rfl ht hf hx hfit rfl hck
    simp only [State.length_in0Bytes, State.length_in1Bytes, State.length_in2Bytes] at ht hf hx hfit
    have hfits := frameFits_buildPublishLog_iff.mpr ⟨⟨ht, hf, Nat.le_of_succ_le_succ hx⟩, hfit⟩
    rw [exec_builder_of_fits (by decide) hfits, State.builderFrame,
      finalizeFrame_header (by simp [logFrame, pubHdr, lenField, textField, reserved8, newline, typePublish]) hck]
  · refine exec_builder_of_not_fits (by decide) fun hfits => ?_
    obtain ⟨⟨ht, hf, hx⟩, hfit⟩ := frameFits_buildPublishLog_iff.mp hfits
    simp only [hfit, Bool.true_eq_false, or_false] at h
    omega

/-- Settles O14: the print frame finished and offered, or refused; the worked example. -/
theorem buildPublishPrintResult : Obligations.BuildPublishPrintResult := by
  refine ⟨rfl, ?_, fun s h => ?_, by decide +kernel⟩
  · rintro s topic text rest ck rfl rfl ht hx hfit rfl hck
    simp only [State.length_in0Bytes, State.length_in2Bytes] at ht hx hfit
    have hfits := frameFits_buildPublishPrint_iff.mpr ⟨⟨ht, Nat.le_of_succ_le_succ hx⟩, hfit⟩
    rw [exec_builder_of_fits (by decide) hfits, State.builderFrame,
      finalizeFrame_header (by simp [printFrame, pubHdr, lenField, textField, reserved8, newline, typePublish]) hck]
  · refine exec_builder_of_not_fits (by decide) fun hfits => ?_
    obtain ⟨⟨ht, hx⟩, hfit⟩ := frameFits_buildPublishPrint_iff.mp hfits
    simp only [hfit, Bool.true_eq_false, or_false] at h
    omega

/-- The type byte and the reserved byte after it are a segment of their own, so the rest is stuffed by itself (R126). -/
theorem stuff_type_zero {type : Byte} (h : type ≠ delimiter) (rest : Bytes) :
    stuff (type :: 0x00 :: rest) = [0x02, type] ++ stuff rest :=
  stuff_append_delimiter (d := [type]) rest (List.not_mem_cons_of_ne_of_not_mem h.symm List.not_mem_nil) (by simp)

/-- Settles O17: FINALIZE of a frame with a zero checksum field leaves its checksum there. -/
theorem builtFrameChecksumIsConsistent : Obligations.BuiltFrameChecksumIsConsistent := by
  intro i hi s
  obtain ⟨t, ht, hoffer⟩ := exec_builder_offers hi s
  refine ⟨t, ht, fun hstatus => ?_⟩
  obtain ⟨body, hbody⟩ := s.builderFrame_header hi
  rw [hoffer hstatus, hbody]
  have hck := of_decide_eq_true (checksumHolds_finalizeFrame (builderType i) body)
  exact ⟨(congrArg fromLe hck).trans (fromLe_le16 _), rfl⟩

/-- Settles O18: FINALIZE keeps each layout's length, and the wire image is the stuffed frame and a delimiter. -/
theorem builtFrameLengths : Obligations.BuiltFrameLengths := by
  intro i hi s
  obtain ⟨t, ht, hoffer⟩ := exec_builder_offers hi s
  refine ⟨t, ht, fun hstatus => ?_⟩
  obtain ⟨body, hbody⟩ := s.builderFrame_header hi
  have hfbuf : t.fbuf.length = (s.builderFrame i).length := by rw [hoffer hstatus]; exact length_finalizeFrame _
  have hfour : 4 ≤ (s.builderFrame i).length := by rw [hbody]; simp
  have htxbuf : t.txbuf.length = (stuff t.fbuf).length + 1 := by rw [hoffer hstatus]; exact List.length_append
  obtain ⟨-, hlower, hupper, -⟩ := stuffedOutputBounds t.fbuf
  rw [htxbuf]
  refine ⟨?_, ?_, ?_, ?_, by omega, by omega, by omega⟩ <;> rintro rfl <;> simp [hfbuf]

/-- Settles O19: the frame begins with its type and the reserved byte, which are a segment of their own. -/
theorem wireImageFirstBytes : Obligations.WireImageFirstBytes := by
  intro i hi s
  obtain ⟨t, ht, hoffer⟩ := exec_builder_offers hi s
  refine ⟨t, ht, fun hstatus => ⟨builderType i, rfl, ?_⟩⟩
  have htype : builderType i ≠ delimiter := by
    unfold builderType
    split <;> decide
  obtain ⟨body, hbody⟩ := s.builderFrame_header hi
  have hwire : t.txbuf = [0x02, builderType i] ++ stuff (t.fbuf.drop 2) ++ [0x00] := by
    rw [hoffer hstatus, hbody]
    exact congrArg (· ++ [0x00]) (stuff_type_zero htype _)
  exact ⟨hwire, by rw [hwire]; rfl⟩

/-- Settles O20: the offer takes the listed answer, cut to the wire image. -/
theorem writeCountsAcceptedBytes : Obligations.WriteCountsAcceptedBytes := by
  intro i hi s a answers hanswers
  obtain ⟨t, ht, hoffer⟩ := exec_builder_offers hi s
  refine ⟨t, ht, fun hstatus => ⟨min a t.txbuf.length, rfl, ?_⟩⟩
  have ha : s.txAnswer = a := by rw [State.txAnswer, hanswers]
  have hdrop : s.dropTxAnswer.txAnswers = answers := by rw [State.dropTxAnswer_txAnswers, hanswers]; rfl
  rw [hoffer hstatus, State.offer, ha]
  set wire := stuff (finalizeFrame (s.builderFrame i)) ++ [0x00]
  refine ⟨rfl, rfl, congrArg (s.txTrace ++ ·) List.take_eq_take_min, hdrop, fun hall => ?_, fun hshort => ?_⟩
  · have hle : wire.length ≤ a := min_eq_right_iff.mp hall
    exact ⟨if_pos hle, if_pos hle⟩
  · have hlt : a < wire.length := (min_lt_iff.mp hshort).resolve_right (lt_irrefl _)
    exact ⟨if_neg hlt.not_ge, (if_neg hlt.not_ge).trans (by rw [Nat.min_eq_left hlt.le])⟩

/-- A builder's limits and frame depend on its own operands alone. -/
theorem builderFrame_operandLimits_congr {i : Instr} (hi : i ∈ builders) {s s' : State} (h0 : s.in0Bytes = s'.in0Bytes)
    (hnode : i ≠ .buildSubscribe → s.nodeId = s'.nodeId) (hver : i = .buildPublishRaw → s.ver = s'.ver)
    (h1 : i = .buildPublishRaw ∨ i = .buildPublishLog → s.in1Bytes = s'.in1Bytes)
    (h2 : i = .buildPublishLog ∨ i = .buildPublishPrint → s.in2Bytes = s'.in2Bytes) :
    s.builderFrame i = s'.builderFrame i ∧ s.operandLimits i = s'.operandLimits i := by
  have hlen0 : s.in0.len = s'.in0.len := by simpa using congrArg List.length h0
  obtain rfl | rfl | rfl | rfl := mem_builders_iff.mp hi
  · simp [h0, hlen0]
  · simp [h0, hlen0, hnode, hver, h1]
  · have hlen1 : s.in1.len = s'.in1.len := by simpa using congrArg List.length (h1 (.inr rfl))
    have hlen2 : s.in2.len = s'.in2.len := by simpa using congrArg List.length (h2 (.inl rfl))
    simp [h0, hlen0, hnode, h1, hlen1, h2, hlen2]
  · have hlen2 : s.in2.len = s'.in2.len := by simpa using congrArg List.length (h2 (.inr rfl))
    simp [h0, hlen0, hnode, h2, hlen2]

/-- Settles O21: the check and the frame are functions of the operands, and the frame alone makes `FBUF` and `TXBUF`. -/
theorem buildersCarryNoState : Obligations.BuildersCarryNoState := by
  intro i hi s s' hcap h0 hnode hver h1 h2
  obtain ⟨hframe, hlimits⟩ := builderFrame_operandLimits_congr hi h0 hnode hver h1 h2
  have hfits : s.FrameFits i ↔ s'.FrameFits i := by rw [State.FrameFits, State.FrameFits, hcap, hframe, hlimits]
  by_cases h : s.FrameFits i
  · refine ⟨_, _, exec_builder_of_fits hi h, exec_builder_of_fits hi (hfits.mp h),
      iff_of_false (s.status_offer_ne _) (s'.status_offer_ne _), fun _ => ?_⟩
    rw [hframe]
    exact ⟨rfl, rfl⟩
  · obtain ⟨n, hn⟩ := exec_builder_of_not_fits hi h
    obtain ⟨n', hn'⟩ := exec_builder_of_not_fits hi (mt hfits.mpr h)
    exact ⟨_, _, hn, hn', iff_of_true rfl rfl, fun hstatus => absurd rfl hstatus⟩

/-! ### Print and log (R122) -/

theorem State.offer_setIn1 (s : State) (b : InBuf) (frame : Bytes) :
    { State.offer { s with in1 := b } frame with in1 := s.in1 } = s.offer frame := by
  have hdrop : State.dropTxAnswer { s with in1 := b } = { s.dropTxAnswer with in1 := b } := by
    unfold State.dropTxAnswer
    cases s.txAnswers <;> rfl
  simp only [State.offer, hdrop, State.dropTxAnswer_in1]
  rfl

/-- A builder reads `IN1` for its check and its frame only. -/
theorem State.build_setIn1 (s : State) (b : InBuf) (check : Option Nat) (frame : Bytes) :
    { State.build { s with in1 := b } check frame with in1 := s.in1 } = s.build check frame := by
  cases check with
  | some len => rfl
  | none => simpa only [State.build, State.transmit_assemble] using s.offer_setIn1 b (finalizeFrame frame)

/-- Settles O15: a print frame is the log frame with an empty filename, which is within its limit. -/
theorem printIsLogWithoutFilename : Obligations.PrintIsLogWithoutFilename := by
  intro s
  have hcheck : printCheck s.params.frameMax s.in0.len s.in2.len =
      logCheck s.params.frameMax s.in0.len 0 s.in2.len := by simp [printCheck, logCheck, lengthCheck]
  have hframe := printFrame_eq_logFrame s.nodeId s.in0Bytes s.in2Bytes
  calc exec .buildPublishPrint s
      = .next (s.build (logCheck s.params.frameMax s.in0.len 0 s.in2.len)
          (logFrame s.nodeId s.in0Bytes [] s.in2Bytes)) := by rw [← hcheck, ← hframe]; rfl
    _ = _ := congrArg Host.Outcome.next (s.build_setIn1 { s.in1 with len := 0 } _ _).symm

end Sys2Proof.Machine
end

section
/-! The link reader (R140 to R154). Either form of the loop is the loop over its answers, and bytes that arrive are
gathered; from that: what one step does to a running reader, and where READ_BURST and POLL stand after a line. -/

namespace Sys2Proof.Machine

open Sys2Proof Sys2Proof.Safety

/-! ### The accumulator (R148) -/

/-- The two ways to append: the block takes the bytes one at a time, the source's loop a chunk at once. -/
theorem Reading.acceptAll_eq_gather (cap : Option Nat) (r : Reading) (bytes : Bytes) :
    r.acceptAll cap bytes =
      { r with acc := (gather cap r.acc r.ovf bytes).1, ovf := (gather cap r.acc r.ovf bytes).2 } := by
  induction bytes generalizing r with
  | nil =>
    cases cap with
    | none => simp [Reading.acceptAll, gather]
    | some m => simp [Reading.acceptAll, gather, List.take_of_length_le (Nat.le_max_right m r.acc.length)]
  | cons b rest ih =>
    rw [Reading.acceptAll, ih]
    cases cap with
    | none => simp [Reading.accept, fits, gather]
    | some m =>
      by_cases hroom : r.acc.length + 1 ≤ m
      · have hmax : max m r.acc.length = max m (r.acc.length + 1) := by omega
        have hovf : (rest ≠ [] ∧ m < r.acc.length + 1 + rest.length) ↔ m < r.acc.length + (rest.length + 1) := by
          cases rest with
          | nil => simp; omega
          | cons c rest => simp; omega
        simp [Reading.accept, fits, hroom, gather, hmax, hovf]
      · have hfull : max m r.acc.length = r.acc.length := by omega
        have hdropped : m < r.acc.length + (rest.length + 1) := by omega
        simp [Reading.accept, fits, hroom, gather, hfull, hdropped]

theorem overflows_some (m n : Nat) : overflows (some m) n = decide (m < n) := by
  rw [overflows, fits, ← decide_not]
  exact decide_eq_decide.mpr Nat.not_le

/-- What a reader holds that started empty: the first `RX_MAX` bytes. -/
theorem Reading.acceptAll_start (cap : Option Nat) (forPoll : Bool) (bytes : Bytes) :
    (Reading.start forPoll).acceptAll cap bytes =
      { forPoll := forPoll, idle := 0, acc := cut cap bytes, ovf := overflows cap bytes.length } := by
  rw [Reading.acceptAll_eq_gather]
  cases cap with
  | none => rfl
  | some m =>
    have hovf : (bytes ≠ [] ∧ m < bytes.length) ↔ m < bytes.length := by cases bytes <;> simp
    simp [Reading.start, gather, cut, overflows_some, hovf]

theorem Reading.acceptAll_setIdle (cap : Option Nat) (r : Reading) (k : Ticks) (bytes : Bytes) :
    Reading.acceptAll cap { r with idle := k } bytes = { r.acceptAll cap bytes with idle := k } := by
  simp only [Reading.acceptAll_eq_gather]

theorem Reading.acceptAll_append (cap : Option Nat) (r : Reading) (a b : Bytes) :
    r.acceptAll cap (a ++ b) = (r.acceptAll cap a).acceptAll cap b := by
  induction a generalizing r with
  | nil => rfl
  | cons x a ih => exact ih (r.accept cap x)

/-! ### One iteration, by its answer (R142, R144, R145) -/

/-- An iteration of the hardware form does what the source's does on its answer. -/
theorem Reading.advance_eq_poll (cap : Option Nat) (timeout : Ticks) (r : Reading) (e : LineEvent) :
    r.advance cap timeout e = r.advance cap timeout (.poll (answerOf e) (elapsedOf e)) := by
  match e with
  | .tick (some _) _ | .tick none true | .tick none false | .poll _ _ => rfl

section
variable (cap : Option Nat) (timeout : Ticks) (r : Reading) {e : LineEvent}

theorem Reading.advance_of_chunk {b : Byte} {bs : Bytes}
    (h : answerOf e = .chunk (b :: bs)) :
    r.advance cap timeout e = .going
      { forPoll := r.forPoll, idle := 0, acc := (gather cap r.acc r.ovf (b :: bs)).1,
        ovf := (gather cap r.acc r.ovf (b :: bs)).2 } := by
  rw [Reading.advance_eq_poll, h, Reading.advance, Reading.arrive, Reading.acceptAll_eq_gather]

theorem Reading.advance_of_fail (h : answerOf e = .fail) : r.advance cap timeout e = .failed := by
  rw [Reading.advance_eq_poll, h]
  rfl

theorem Reading.advance_of_empty (h : answerOf e = .nothing ∨ answerOf e = .chunk []) :
    r.advance cap timeout e = r.wait timeout (elapsedOf e) := by
  rw [Reading.advance_eq_poll]
  rcases h with h | h <;> rw [h] <;> rfl

end

theorem Reading.wait_of_le {timeout : Ticks} {r : Reading} {n : Nat} (h : r.idle.toNat + n ≤ timeout.toNat) :
    r.wait timeout n = .going { r with idle := BitVec.ofNat Config.timeW (r.idle.toNat + n) } :=
  if_neg (Nat.not_lt.mpr h)

theorem Reading.wait_of_lt {timeout : Ticks} {r : Reading} {n : Nat} (h : timeout.toNat < r.idle.toNat + n) :
    r.wait timeout n = .finished r := if_pos h

/-! ### How a reader ends (R146, R149, R186) -/

theorem State.endReading_readBurst (s : State) {r : Reading} (hr : r.forPoll = false) :
    s.endReading r = { s with acc := r.acc, rxOvf := r.ovf, activity := .ready, status := 0x00, info := 0 } := by
  rw [State.endReading, hr]
  rfl

theorem State.endReading_poll (s : State) {r : Reading} (hr : r.forPoll = true) :
    s.endReading r = State.handleBurst { s with acc := r.acc, rxOvf := r.ovf, activity := .ready } := by
  rw [State.endReading, hr]
  rfl

/-- What POLL does not write when it judges a burst, and that it ends with `OK` on every path (R190). -/
theorem State.handleBurst_eq (s : State) :
    ∃ valid record count items codes cons fr,
      s.handleBurst =
        { s with
          recValid := valid, record := record, dispatched := count, cbTrace := items, busyTrace := codes,
          consumers := cons, free := fr, status := 0x00, info := 0 } := by
  rcases s.handleBurst_cases with ⟨_, he⟩ | ⟨_, _, _, _, he⟩ | ⟨_, _, _, r, _, he⟩
  · exact ⟨_, _, _, _, _, _, _, he⟩
  · exact ⟨_, _, _, _, _, _, _, he⟩
  · obtain ⟨items, codes, cons, fr, hdisp, _⟩ := (s.setRecord r).dispatchAll_spec
    rw [hdisp] at he
    exact ⟨_, _, _, _, _, _, _, he⟩

/-- What sends a burst to the parser, in the words of `Judged`. -/
theorem not_discarded {s : State} (hovf : s.rxOvf = false) (hlen : 4 ≤ s.acc.length)
    (htype : s.acc.getD 0 0 = typePublish) :
    ¬(s.rxOvf = true ∨ s.acc.length < 4 ∨ s.acc.getD 0 0 ≠ 0x02) :=
  not_or.mpr ⟨Bool.not_eq_true _ ▸ hovf, not_or.mpr ⟨Nat.not_lt.mpr hlen, not_not_intro htype⟩⟩

/-- The burst in `ACC` is judged as R186 to R188 say, provided nothing has been recorded since the POLL began. -/
theorem State.handleBurst_judged {s : State} (hrec : s.recValid = false) (hdisp : s.dispatched = 0) :
    Judged s s.acc s.rxOvf s.handleBurst := by
  unfold Judged
  rcases s.handleBurst_cases with ⟨hbad, he⟩ | ⟨hovf, hlen, htype, hparse, he⟩ | ⟨hovf, hlen, htype, r, hparse, he⟩
  · rw [if_pos (c := s.rxOvf = true ∨ s.acc.length < 4 ∨ s.acc.getD 0 0 ≠ 0x02) hbad, he]
    exact ⟨hrec, hdisp, rfl⟩
  · rw [if_neg (not_discarded hovf hlen htype), hparse, he]
    exact ⟨rfl, hdisp, rfl⟩
  · rw [if_neg (not_discarded hovf hlen htype), hparse, he]
    obtain ⟨items, codes, cons, fr, hd, hhandles, hrecord⟩ := (s.setRecord r).dispatchAll_spec
    rw [hd]
    exact ⟨rfl, rfl, rfl, items, rfl, hhandles, hrecord⟩

/-- What a POLL leaves that judges its burst. -/
theorem State.handleBurst_result {s : State} (hrec : s.recValid = false) (hdisp : s.dispatched = 0) :
    s.handleBurst.status = 0x00 ∧ s.handleBurst.info = 0 ∧ s.handleBurst.busy = s.busy ∧
      s.handleBurst.inputs = s.inputs ∧ s.handleBurst.acc = s.acc ∧ s.handleBurst.rxOvf = s.rxOvf ∧
      s.handleBurst.regy = s.regy ∧ Judged s s.acc s.rxOvf s.handleBurst := by
  have hjudged := State.handleBurst_judged hrec hdisp
  obtain ⟨valid, record, count, items, codes, cons, fr, he⟩ := s.handleBurst_eq
  rw [he] at hjudged ⊢
  exact ⟨rfl, rfl, rfl, rfl, rfl, rfl, rfl, hjudged⟩

/-! ### One step of a running reader (R151) -/

section
variable {s : State} {r r' : Reading} {e : LineEvent} {rest : List Input}

theorem step_reading (hr : s.activity = .reading r) (hin : s.inputs = .line e :: rest) :
    step s = .next ({ s with inputs := rest }.readerStep r e) := by
  have hfetch : s.fetch = .over (.next ({ s with inputs := rest }.lineEvent e)) := by rw [State.fetch, hin]
  rw [step_of_fetch_over hfetch, State.lineEvent, hr]

theorem step_reading_going (hr : s.activity = .reading r) (hin : s.inputs = .line e :: rest)
    (h : r.advance s.params.rxMax s.idleTimeout e = .going r') :
    step s = .next { s with inputs := rest, activity := .reading r' } := by
  rw [step_reading hr hin, State.readerStep, h]

theorem step_reading_finished (hr : s.activity = .reading r) (hin : s.inputs = .line e :: rest)
    (h : r.advance s.params.rxMax s.idleTimeout e = .finished r') :
    step s = .next ({ s with inputs := rest }.endReading r') := by
  rw [step_reading hr hin, State.readerStep, h]

theorem step_reading_failed (hr : s.activity = .reading r) (hin : s.inputs = .line e :: rest)
    (h : r.advance s.params.rxMax s.idleTimeout e = .failed) :
    step s = .next { s with inputs := rest }.failReading := by
  rw [step_reading hr hin, State.readerStep, h]

end

/-- Settles O60: an iteration goes by its answer, and a wait by where the clock comes to. -/
theorem waitingReaderEnds : Obligations.WaitingReaderEnds := by
  intro s r e rest hr hin
  refine ⟨fun b bs h => ?chunk, fun h => ?fail, fun h => ?empty⟩
  case chunk => exact step_reading_going hr hin (Reading.advance_of_chunk _ _ r h)
  case fail => exact step_reading_failed hr hin (Reading.advance_of_fail _ _ r h)
  case empty =>
    have hwait := Reading.advance_of_empty s.params.rxMax s.idleTimeout r h
    refine ⟨fun hle => ?_, fun hlt hburst => ?_, fun hlt hpoll hrec hdisp => ?_⟩
    · exact ⟨_, toNat_ofNat_of_le_ticks hle, step_reading_going hr hin (hwait.trans (Reading.wait_of_le hle))⟩
    · rw [step_reading_finished hr hin (hwait.trans (Reading.wait_of_lt hlt)), State.endReading_readBurst _ hburst]
    · rw [step_reading_finished hr hin (hwait.trans (Reading.wait_of_lt hlt)), State.endReading_poll _ hpoll]
      exact ⟨_, rfl, State.handleBurst_result hrec hdisp⟩

/-! ### The reader along a line (R149, R153, R154) -/

theorem State.drain_failed {s : State} {r : Reading} {e : LineEvent}
    (h : r.advance s.params.rxMax s.idleTimeout e = .failed) (rest : List Input) :
    s.drain r (.line e :: rest) = { s with inputs := rest }.failReading := by
  rw [State.drain, h]

theorem exec_readBurst (s : State) : exec .readBurst s = .next (s.drain (Reading.start false) s.inputs) := rfl

theorem exec_poll (s : State) : exec .poll s = .next (s.startPoll.drain (Reading.start true) s.inputs) := rfl

/-- Settles O22: the bytes of the line are the burst the reader ends with. -/
theorem readBurstEndsAfterGap : Obligations.ReadBurstEndsAfterGap := by
  refine ⟨rfl, fun s line rest hline hin => ?_⟩
  rw [exec_readBurst, hin, s.drain_burst rfl hline, Reading.acceptAll_start, State.endReading_readBurst _ rfl,
    List.length_map]

/-- A failure after a line and a silence that the burst survives ends the command. -/
theorem State.drain_arrivals_fail (s : State) {r : Reading} (hr : r.idle = 0) {line : List (Nat × Byte)} {n : Nat}
    {e : LineEvent} (hline : ∀ x ∈ line, x.1 ≤ s.idleTimeout.toNat) (hn : n ≤ s.idleTimeout.toNat)
    (he : answerOf e = .fail) (rest : List Input) :
    s.drain r (arrivals line ++ silence n ++ .line e :: rest) = { s with inputs := rest }.failReading := by
  rw [List.append_assoc, s.drain_arrivals hr hline, s.drain_silence (by simpa using hr) hn,
    State.drain_failed (Reading.advance_of_fail _ _ _ he)]

/-- Settles O25: both commands end as the failed reader does. -/
theorem readFailureDiscardsBurst : Obligations.ReadFailureDiscardsBurst := by
  intro s line n e rest hline hn he hin
  rw [exec_readBurst, exec_poll, hin, s.drain_arrivals_fail rfl hline hn he,
    s.startPoll.drain_arrivals_fail rfl hline hn he]
  exact ⟨rfl, _, rfl, rfl⟩

/-- Settles O26: after the line the reader runs with its bytes, and one more byte lets it go on. -/
theorem unbrokenLineStaysBusy : Obligations.UnbrokenLineStaysBusy := by
  constructor
  · intro s line hline hin
    have hdrain := s.drain_arrivals (r := Reading.start false) rfl hline []
    rw [List.append_nil, Reading.acceptAll_start] at hdrain
    rw [exec_readBurst, hin, hdrain]
    exact ⟨_, _, rfl, rfl, rfl, rfl, rfl, rfl, rfl⟩
  · intro s b failed rest hbusy hin
    cases hact : s.activity with
    | ready => rw [s.busy_eq_false_iff.mpr hact] at hbusy; cases hbusy
    | reading r =>
      exact ⟨_, step_reading_going hact hin (Reading.advance_of_chunk _ _ r rfl), rfl⟩

/-! ### One chunk or two (R143) -/

/-- The reader is given the events of the line; those listed in its state are no part of what it does. -/
theorem State.drain_setInputs (s : State) (r : Reading) (before inputs : List Input) :
    State.drain { s with inputs := before } r inputs = s.drain r inputs := by
  induction inputs generalizing r with
  | nil => rfl
  | cons i rest ih =>
    cases i with
    | host a => rfl
    | line e => simp only [State.drain, ih]

theorem exec_readBurst_setInputs (s : State) (inputs : List Input) :
    exec .readBurst { s with inputs := inputs } = .next (s.drain (Reading.start false) inputs) :=
  congrArg Host.Outcome.next (s.drain_setInputs _ inputs inputs)

/-- The state but for the events left to the environment. -/
def State.withoutInputs (s : State) : State := { s with inputs := [] }

/-- Two continuations that differ for no reader, up to the events left over, do not differ after any iterations of
READ_BURST. -/
theorem State.drain_append_congr (s : State) {x y : List Input}
    (hxy : ∀ r : Reading, (s.drain r x).withoutInputs = (s.drain r y).withoutInputs)
    (before : List LineEvent) {r : Reading} (hr : r.forPoll = false) :
    (s.drain r (before.map Input.line ++ x)).withoutInputs =
      (s.drain r (before.map Input.line ++ y)).withoutInputs := by
  induction before generalizing r with
  | nil => exact hxy r
  | cons e before ih =>
    rw [List.map_cons, List.cons_append, List.cons_append]
    cases ha : r.advance s.params.rxMax s.idleTimeout e with
    | going r' =>
      rw [State.drain_going ha, State.drain_going ha]
      exact ih ((Reading.advance_forPoll ha).trans hr)
    | finished r' =>
      obtain rfl := advance_finished ha
      rw [State.drain_finished ha, State.drain_finished ha, State.endReading_readBurst _ hr,
        State.endReading_readBurst _ hr]
      rfl
    | failed =>
      rw [State.drain_failed ha, State.drain_failed ha]
      rfl

theorem State.drain_chunk (s : State) (r : Reading) {bytes : Bytes} (h : bytes ≠ []) (k : Nat) (rest : List Input) :
    s.drain r (.line (.poll (.chunk bytes) k) :: rest) =
      s.drain { r.acceptAll s.params.rxMax bytes with idle := 0 } rest := by
  cases bytes with
  | nil => exact absurd rfl h
  | cons b bs => rfl

/-- Settles O24: whatever the reader holds before the chunks, it holds the same after them. -/
theorem chunkingDoesNotMatter : Obligations.ChunkingDoesNotMatter := by
  intro s before after a b k m n ha hb
  refine ⟨_, _, exec_readBurst_setInputs s _, exec_readBurst_setInputs s _, ?_⟩
  refine s.drain_append_congr (fun r => ?_) before (r := Reading.start false) rfl
  have hab : a ++ b ≠ [] := List.append_ne_nil_of_left_ne_nil ha b
  rw [s.drain_chunk r hab, s.drain_chunk r ha, s.drain_chunk _ hb, Reading.acceptAll_append,
    Reading.acceptAll_setIdle _ (r.acceptAll s.params.rxMax a) 0]

/-! ### The source's loop (R142) -/

/-- The block after a READ_BURST begun in `s` whose loop stands as the result says when the clock shows `clock`; `left` are
the events that an ended loop leaves over. -/
def State.afterLoop (s : State) (left : List Input) (clock : Nat) : LoopResult → State
  | .returned acc ovf => { s with acc := acc, rxOvf := ovf, activity := .ready, inputs := left, status := 0x00, info := 0 }
  | .failed => { s with acc := [], rxOvf := false, activity := .ready, inputs := left, status := 0x01, info := 0 }
  | .going t0 acc ovf =>
    { s with inputs := [], activity := .reading ⟨false, BitVec.ofNat Config.timeW (clock - t0), acc, ovf⟩ }

theorem sourceLoop_of_empty {timeout t0 now : Nat} {cap : Option Nat} {acc : Bytes} {ovf : Bool} {a : RxAnswer}
    (h : a = .nothing ∨ a = .chunk []) (rest : List (RxAnswer × Nat)) :
    sourceLoop timeout cap t0 acc ovf ((a, now) :: rest) =
      if now - t0 > timeout then .returned acc ovf else sourceLoop timeout cap t0 acc ovf rest := by
  rcases h with rfl | rfl <;> rfl

/-- The answers of `env.read_available` as the loop tells them apart (R50, R142). -/
theorem RxAnswer.chunk_or_fail_or_empty (a : RxAnswer) :
    (∃ b bs, a = .chunk (b :: bs)) ∨ a = .fail ∨ a = .nothing ∨ a = .chunk [] := by
  match a with
  | .chunk (b :: bs) => exact .inl ⟨b, bs, rfl⟩
  | .fail => exact .inr (.inl rfl)
  | .nothing => exact .inr (.inr (.inl rfl))
  | .chunk [] => exact .inr (.inr (.inr rfl))

/-- The simulation: the idle clock is the time since the reading `t0` that the loop remembers. -/
theorem State.drain_eq_afterLoop (s : State) (evs : List LineEvent) {r : Reading} (hr : r.forPoll = false) {t0 now : Nat}
    (hclock : now = t0 + r.idle.toNat) :
    ∃ left, s.drain r (evs.map Input.line) =
      s.afterLoop left (now + (evs.map elapsedOf).sum)
        (sourceLoop s.idleTimeout.toNat s.params.rxMax t0 r.acc r.ovf (readings now evs)) := by
  induction evs generalizing r t0 now with
  | nil =>
    obtain ⟨forPoll, idle, acc, ovf⟩ := r
    obtain rfl : forPoll = false := hr
    have hidle : BitVec.ofNat Config.timeW (now + 0 - t0) = idle := by simp [hclock]
    exact ⟨[], congrArg (fun k => { s with inputs := [], activity := .reading ⟨false, k, acc, ovf⟩ }) hidle.symm⟩
  | cons e evs ih =>
    rw [List.map_cons, List.map_cons, List.sum_cons, ← Nat.add_assoc, readings]
    rcases (answerOf e).chunk_or_fail_or_empty with ⟨b, bs, h⟩ | h | h
    · have hgo := Reading.advance_of_chunk s.params.rxMax s.idleTimeout r h
      rw [State.drain_going hgo, h, sourceLoop]
      refine ih (r := ⟨r.forPoll, 0, _, _⟩) hr ?_
      rfl
    · rw [State.drain_failed (Reading.advance_of_fail _ _ r h), h]
      exact ⟨evs.map Input.line, rfl⟩
    · rw [sourceLoop_of_empty h]
      have hwait := Reading.advance_of_empty s.params.rxMax s.idleTimeout r h
      by_cases hlt : s.idleTimeout.toNat < r.idle.toNat + elapsedOf e
      · rw [State.drain_finished (hwait.trans (Reading.wait_of_lt hlt)), State.endReading_readBurst _ hr,
          if_pos (by omega)]
        exact ⟨evs.map Input.line, rfl⟩
      · have hle := Nat.not_lt.mp hlt
        rw [State.drain_going (hwait.trans (Reading.wait_of_le hle)), if_neg (by omega)]
        refine ih (t0 := t0) (r := { r with idle := BitVec.ofNat Config.timeW _ }) hr ?_
        rw [toNat_ofNat_of_le_ticks hle, hclock, Nat.add_assoc]

/-- Settles O23: the reader and the loop start together. -/
theorem readBurstRefinesSourceLoop : Obligations.ReadBurstRefinesSourceLoop := by
  intro s now evs hin
  obtain ⟨left, he⟩ := s.drain_eq_afterLoop evs (r := Reading.start false) rfl (t0 := now) (now := now) rfl
  refine ⟨_, exec_readBurst s, ?_⟩
  rw [hin, he, Reading.start]
  cases sourceLoop s.idleTimeout.toNat s.params.rxMax now [] false (readings now evs) <;> rfl

end Sys2Proof.Machine
end

section
/-! PARSE_PUBLISH (R160 to R170). A body has a record exactly if both length checks pass, and the command stores that
record or drops the one it had. -/

namespace Sys2Proof.Machine

open Sys2Proof Sys2Proof.Safety

/-! ### The two answers of the parser (R161, R163) -/

/-- The fields as they stand in a body that passes both length checks (R162, R164 to R166). -/
def bodyFields (p : Bytes) : Record :=
  { nodeId := BitVec.ofNat 64 (fromLe (slice p 0 8)), type := p.getD 8 0, version := p.getD 9 0,
    topicLen := BitVec.ofNat 16 (fromLe (slice p 10 2)), topic := slice p 12 (fromLe (slice p 10 2)),
    dataLen := BitVec.ofNat 32 (p.length - (12 + fromLe (slice p 10 2))),
    data := p.drop (12 + fromLe (slice p 10 2)) }

theorem parseBody_of_le {p : Bytes} (h : 12 + fromLe (slice p 10 2) ≤ p.length) : parseBody p = some (bodyFields p) := by
  rcases parseBody_cases p with ⟨hshort, _⟩ | ⟨_, hover, _⟩ | ⟨_, r, hr, hnode, htype, hver, htl, ht, hdl, hd⟩
  · omega
  · omega
  · obtain ⟨⟩ := r
    rw [hr, bodyFields, ← hnode, ← htype, ← hver, ← htl, ← ht, ← hdl, ← hd]

theorem parseBody_eq_none_iff {p : Bytes} :
    parseBody p = none ↔ p.length < 12 ∨ p.length < 12 + fromLe (slice p 10 2) := by
  rcases parseBody_cases p with ⟨hshort, hn⟩ | ⟨_, hover, hn⟩ | ⟨hle, r, hr, _⟩
  · exact ⟨fun _ => .inl hshort, fun _ => hn⟩
  · exact ⟨fun _ => .inr hover, fun _ => hn⟩
  · rw [hr]
    exact ⟨nofun, fun h => by omega⟩

/-! ### The command (R160, R169) -/

theorem exec_parsePublish (s : State) : exec .parsePublish s = .next (s.storeParse s.in0Bytes).done := rfl

theorem exec_parsePublish_of_none {s : State} (h : parseBody s.in0Bytes = none) :
    exec .parsePublish s = .next s.dropRecord.done := by
  rw [exec_parsePublish, State.storeParse, h]

theorem exec_parsePublish_of_some {s : State} {r : Record} (h : parseBody s.in0Bytes = some r) :
    exec .parsePublish s = .next (s.setRecord r).done := by
  rw [exec_parsePublish, State.storeParse, h]

/-- Settles O27: the length checks decide the parser's answer, and the answer decides the next state. -/
theorem parsePublishResult : Obligations.ParsePublishResult := by
  refine ⟨rfl, parseBody_publishBody (t := deviceLed) (by decide) nid 0x01 0x01 ledOn, ?_⟩
  rintro s p n topicLen rfl rfl rfl
  refine ⟨fun hshort => ?_, fun _ hle => ?_⟩
  · exact ⟨_, exec_parsePublish_of_none (parseBody_eq_none_iff.mpr hshort), rfl⟩
  · exact exec_parsePublish_of_some (parseBody_of_le hle)

/-- The command's result is the parser's answer, whatever else the state holds. -/
theorem parsesTo_parseBody (p : Bytes) : ParsesTo p (parseBody p) := by
  rintro s rfl
  cases h : parseBody s.in0Bytes with
  | none => exact ⟨_, exec_parsePublish_of_none h, rfl, rfl, nofun⟩
  | some r => exact ⟨_, exec_parsePublish_of_some h, rfl, rfl, fun _ hx => Option.some.inj hx⟩

/-- A topic length larger than what follows it fails the second check (R163). -/
theorem parseBody_of_topic_overrun (n : NodeId) (y v : Byte) {len : Half} {r : Bytes} (h : r.length < len.toNat) :
    parseBody (le64 n ++ [y, v] ++ le16 len ++ r) = none := by
  have hfield : slice (le64 n ++ [y, v] ++ le16 len ++ r) 10 2 = le16 len := rfl
  have hlen : (le64 n ++ [y, v] ++ le16 len ++ r).length = 12 + r.length := by
    simp only [List.length_append, length_le64, length_le16, List.length_cons, List.length_nil]
  rw [parseBody_eq_none_iff, hfield, fromLe_le16, hlen]
  omega

/-- Settles O28: a well-formed body is a publish body, of which the parser answers the record; the other two fail a length
check. -/
theorem parseRoundTrip : Obligations.ParseRoundTrip := by
  refine ⟨fun p hp => ?_, fun n y v len r hr => ?_, fun n y v t d ht => ?_⟩
  · exact parseBody_eq_none_iff.mpr (.inl hp) ▸ parsesTo_parseBody p
  · exact parseBody_of_topic_overrun n y v hr ▸ parsesTo_parseBody _
  · have hbody : le64 n ++ [y, v] ++ le16 (BitVec.ofNat 16 t.length) ++ t ++ d = publishBody n y v t d := by
      simp [publishBody, lenField]
    rw [hbody]
    exact parseBody_publishBody ht n y v d ▸ parsesTo_parseBody _

end Sys2Proof.Machine
end

section
/-! The dispatcher (R175 to R191). The dispatch loop as one equation, with listed answers and free ones alike; the
outcomes of a burst one by one; and POLL as what its two halves are, a READ_BURST and the judging of what it returns. -/

namespace Sys2Proof.Machine

open Sys2Proof Sys2Proof.Safety

/-! ### REGISTER (R177 to R179) -/

/-- Settles O30: the three answers of REGISTER exclude each other. -/
theorem registerResult : Obligations.RegisterResult := by
  refine ⟨rfl, fun s => ?_⟩
  rcases execRegister_cases s with ⟨hold, he⟩ | ⟨hnew, hfull, he⟩ | ⟨hnew, hroom, he⟩
  · exact ⟨fun _ => he, fun hnew => absurd hold hnew, fun hnew => absurd hold hnew⟩
  · exact ⟨fun hold => absurd hold hnew, fun _ _ => he, fun _ hroom => absurd hfull hroom⟩
  · exact ⟨fun hold => absurd hold hnew, fun _ hfull => absurd hfull hroom, fun _ _ => he⟩

/-! ### DISPATCH (R181 to R185) -/

theorem exec_dispatch_of_record {s : State} (h : s.recValid = true) : exec .dispatch s = .next s.dispatchAll.done :=
  congrArg Host.Outcome.next (if_pos h)

theorem exec_dispatch_of_no_record {s : State} (h : s.recValid = false) :
    exec .dispatch s = .next { s with dispatched := 0, status := 0x07, info := 0 } :=
  congrArg Host.Outcome.next (if_neg (Bool.not_eq_true _ ▸ h))

/-- Settles O32: the loop with listed answers, or no loop. -/
theorem dispatchResult : Obligations.DispatchResult := by
  refine ⟨rfl, fun s hrec hanswers => ?_, fun s hrec => exec_dispatch_of_no_record hrec⟩
  rw [exec_dispatch_of_record hrec, State.dispatchAll_listed hanswers]
  rfl

/-- Settles O33: what the loop does with any answers. -/
theorem everyConsumerInvokedOnceInOrder : Obligations.EveryConsumerInvokedOnceInOrder := by
  intro s hrec
  obtain ⟨items, codes, cons, fr, hd, hhandles, hrecords⟩ := s.dispatchAll_spec
  rw [exec_dispatch_of_record hrec, hd]
  exact ⟨_, items, rfl, rfl, hhandles, hrecords, rfl, rfl, rfl, rfl, hrec, rfl⟩

/-- The answer of a consumer that returns the same outcome and tries no command. -/
def InvokeAnswer.quiet (a : InvokeAnswer) : InvokeAnswer := { a with cmdWrites := [] }

theorem flatten_cmdWrites_quiet (l : List InvokeAnswer) :
    ((l.map InvokeAnswer.quiet).map InvokeAnswer.cmdWrites).flatten = [] := by
  simp [InvokeAnswer.quiet]

/-- The dispatch of quiet consumers: the items are the same, and nothing is refused. -/
theorem State.dispatchAll_quiet {s : State} (h : s.regy.length ≤ s.consumers.length) :
    State.dispatchAll { s with consumers := s.consumers.map InvokeAnswer.quiet } =
      { s.dispatchAll with
        busyTrace := s.busyTrace, consumers := (s.consumers.map InvokeAnswer.quiet).drop s.regy.length } := by
  rw [State.dispatchAll_listed h, State.dispatchAll_listed (by simpa using h)]
  simp only [← List.map_take, flatten_cmdWrites_quiet, List.append_nil, List.zipWith_map_right]
  rfl

/-- Settles O34: with a record by the dispatch of quiet consumers; without one nobody is asked. -/
theorem commandsFromConsumersAreRefused : Obligations.CommandsFromConsumersAreRefused := by
  intro s quietly hanswers hquiet
  obtain rfl : quietly = s.consumers.map InvokeAnswer.quiet := hquiet
  rcases Bool.eq_false_or_eq_true s.recValid with hrec | hrec
  · refine ⟨_, _, exec_dispatch_of_record hrec, exec_dispatch_of_record hrec, ?_⟩
    rw [State.dispatchAll_quiet hanswers]
    rfl
  · exact ⟨_, _, exec_dispatch_of_no_record hrec, exec_dispatch_of_no_record hrec, rfl⟩

/-! ### The dispatch loop with any answers (R181, R53) -/

/-- The next `n` answers of `env.invoke`: those listed, and after them free ones, of which `drawn` are used up. -/
def nextAnswers (listed : List InvokeAnswer) (drawn n : Nat) : List InvokeAnswer :=
  listed.take n ++ (List.range' drawn (n - listed.length)).map Config.freeInvoke

theorem nextAnswers_cons (a : InvokeAnswer) (listed : List InvokeAnswer) (drawn n : Nat) :
    nextAnswers (a :: listed) drawn (n + 1) = a :: nextAnswers listed drawn n := by
  simp [nextAnswers]

theorem nextAnswers_nil (drawn n : Nat) :
    nextAnswers [] drawn (n + 1) = Config.freeInvoke drawn :: nextAnswers [] (drawn + 1) n := by
  simp [nextAnswers, List.range'_succ]

/-- The loop reads of the state only the record and the answers to come, and writes only the traces and those answers. -/
theorem State.invokeAll_eq (hs : List Handle) (s : State) :
    s.invokeAll hs =
      { s with
        cbTrace := s.cbTrace ++
          List.zipWith (fun h a => { handle := h, record := s.record, outcome := a.outcome }) hs
            (nextAnswers s.consumers s.free.invoke hs.length)
        busyTrace := s.busyTrace ++
          ((nextAnswers s.consumers s.free.invoke hs.length).map InvokeAnswer.cmdWrites).flatten
        consumers := s.consumers.drop hs.length
        free := { s.free with invoke := s.free.invoke + (hs.length - s.consumers.length) } } := by
  induction hs generalizing s with
  | nil => simp [State.invokeAll, nextAnswers]
  | cons x rest ih =>
    rw [State.invokeAll, ih]
    cases hc : s.consumers with
    | nil =>
      simp [State.invoke, State.invokeAnswer, State.dropInvokeAnswer, hc, nextAnswers_nil, Nat.add_assoc,
        Nat.add_comm 1]
    | cons a answers =>
      simp [State.invoke, State.invokeAnswer, State.dropInvokeAnswer, hc, nextAnswers_cons]

theorem State.dispatchAll_eq (s : State) :
    s.dispatchAll =
      { s with
        cbTrace := s.cbTrace ++
          List.zipWith (fun h a => { handle := h, record := s.record, outcome := a.outcome }) s.regy
            (nextAnswers s.consumers s.free.invoke s.regy.length)
        busyTrace := s.busyTrace ++
          ((nextAnswers s.consumers s.free.invoke s.regy.length).map InvokeAnswer.cmdWrites).flatten
        consumers := s.consumers.drop s.regy.length
        free := { s.free with invoke := s.free.invoke + (s.regy.length - s.consumers.length) }
        dispatched := BitVec.ofNat 32 s.regy.length } := by
  rw [State.dispatchAll, s.invokeAll_eq s.regy]

/-! ### The burst that POLL judges (R148, R186) -/

/-- The state in which POLL judges its burst: nothing recorded yet, the burst in `ACC`, the reader done. -/
def State.holdingBurst (s : State) (acc : Bytes) (ovf : Bool) (rest : List Input) : State :=
  { s.startPoll with acc := acc, rxOvf := ovf, activity := .ready, inputs := rest }

/-- Bytes with gaps of at most the timeout, and then silence, are the burst POLL judges. -/
theorem exec_poll_burst {s : State} {line : List (Nat × Byte)} {rest : List Input}
    (hline : ∀ x ∈ line, x.1 ≤ s.idleTimeout.toNat)
    (hin : s.inputs = arrivals line ++ silence (s.idleTimeout.toNat + 1) ++ rest) :
    exec .poll s = .next (s.holdingBurst (cut s.params.rxMax (line.map Prod.snd))
      (overflows s.params.rxMax line.length) rest).handleBurst := by
  have hdrain := s.startPoll.drain_burst (r := Reading.start true) rfl hline rest
  rw [Reading.acceptAll_start, State.endReading_poll _ rfl, List.length_map] at hdrain
  rw [exec_poll, hin]
  exact congrArg Host.Outcome.next hdrain

/-- A burst that does not overflow is whole. -/
theorem cut_of_not_overflows {cap : Option Nat} {burst : Bytes} (h : overflows cap burst.length = false) :
    cut cap burst = burst := by
  cases cap with
  | none => rfl
  | some m =>
    rw [overflows_some, decide_eq_false_iff_not, Nat.not_lt] at h
    exact List.take_of_length_le h

/-- An overflowed burst is discarded whatever its bytes are, and any other is whole in `ACC`. -/
theorem judged_cut_iff (s t : State) (cap : Option Nat) (burst : Bytes) :
    Judged s (cut cap burst) (overflows cap burst.length) t ↔ Judged s burst (overflows cap burst.length) t := by
  cases hovf : overflows cap burst.length with
  | false => rw [cut_of_not_overflows hovf]
  | true => simp only [Judged, true_or, if_true]

/-- Settles O35: the burst of the line is judged as it stands in `ACC`. -/
theorem pollJudgesBurst : Obligations.PollJudgesBurst := by
  refine ⟨rfl, ?_⟩
  rintro s line rest _ hline hin rfl
  have hpoll := exec_poll_burst hline hin
  rw [← List.length_map (f := Prod.snd)] at hpoll
  obtain ⟨hstatus, hinfo, hbusy, hinputs, hacc, hovf, hregy, hjudged⟩ :=
    State.handleBurst_result (s := s.holdingBurst (cut s.params.rxMax (line.map Prod.snd))
      (overflows s.params.rxMax (line.map Prod.snd).length) rest) rfl rfl
  exact ⟨_, hpoll, hstatus, hinfo, hbusy, hinputs, hacc, hovf, hregy, (judged_cut_iff s _ _ _).mp hjudged⟩

/-! ### What POLL examines of a burst (R187 to R189) -/

theorem State.handleBurst_of_discarded {s : State}
    (h : s.rxOvf = true ∨ s.acc.length < 4 ∨ s.acc.getD 0 0 ≠ typePublish) : s.handleBurst = s.done := by
  rcases s.handleBurst_cases with ⟨_, he⟩ | ⟨hovf, hlen, htype, _⟩ | ⟨hovf, hlen, htype, _⟩
  · exact he
  · exact absurd h (not_discarded hovf hlen htype)
  · exact absurd h (not_discarded hovf hlen htype)

theorem State.handleBurst_of_no_record {s : State} (hovf : s.rxOvf = false) (hlen : 4 ≤ s.acc.length)
    (htype : s.acc.getD 0 0 = typePublish) (hparse : parseBody (s.acc.drop 4) = none) :
    s.handleBurst = s.dropRecord.done := by
  rcases s.handleBurst_cases with ⟨hbad, _⟩ | ⟨_, _, _, _, he⟩ | ⟨_, _, _, r, hr, _⟩
  · exact absurd hbad (not_discarded hovf hlen htype)
  · exact he
  · rw [hparse] at hr; cases hr

/-- Two bursts that differ in no byte that POLL examines: the first, and those after the header. -/
structure SameExamined (a b : Bytes) : Prop where
  length_eq : a.length = b.length
  getElem?_eq : ∀ k, k = 0 ∨ 4 ≤ k → a[k]? = b[k]?

namespace SameExamined

variable {a b : Bytes}

theorem first_eq (h : SameExamined a b) : a.getD 0 0 = b.getD 0 0 := by
  rw [List.getD_eq_getElem?_getD, List.getD_eq_getElem?_getD, h.getElem?_eq 0 (.inl rfl)]

theorem body_eq (h : SameExamined a b) : a.drop 4 = b.drop 4 := by
  refine List.ext_getElem? fun k => ?_
  rw [List.getElem?_drop, List.getElem?_drop, h.getElem?_eq (4 + k) (.inr (Nat.le_add_right 4 k))]

theorem cut (h : SameExamined a b) (cap : Option Nat) : SameExamined (Safety.cut cap a) (Safety.cut cap b) := by
  cases cap with
  | none => exact h
  | some m =>
    refine ⟨by simp only [Safety.cut, List.length_take, h.length_eq], fun k hk => ?_⟩
    simp only [Safety.cut, List.getElem?_take, h.getElem?_eq k hk]

/-- POLL judges the two alike: what it leaves differs in `ACC` alone. -/
theorem handleBurst_eq {s : State} (h : SameExamined a s.acc) :
    State.handleBurst { s with acc := a } = { s.handleBurst with acc := a } := by
  have hlength := h.length_eq
  have hfirst := h.first_eq
  have hbody := h.body_eq
  rcases s.handleBurst_cases with ⟨hbad, he⟩ | ⟨hovf, hlen, htype, hparse, he⟩ | ⟨hovf, hlen, htype, r, hparse, he⟩
  · rw [he, State.handleBurst_of_discarded (s := { s with acc := a }) (by rw [hlength, hfirst]; exact hbad)]
    rfl
  · rw [he, State.handleBurst_of_no_record (s := { s with acc := a }) hovf (hlength ▸ hlen) (hfirst.trans htype)
      (hbody ▸ hparse)]
    rfl
  · rw [he, State.handleBurst_of_parse (s := { s with acc := a }) hovf (hlength ▸ hlen) (hfirst.trans htype)
      (hbody ▸ hparse), State.dispatchAll_eq, State.dispatchAll_eq]
    rfl

end SameExamined

/-- Settles O37: the two lines deliver bursts that differ in no examined byte. -/
theorem inboundChecksumIsNotVerified : Obligations.InboundChecksumIsNotVerified := by
  rintro s _ line line' rest hline hgaps hbytes hin rfl
  have hlength : line'.length = line.length := by simpa using congrArg List.length hgaps
  have hline' : ∀ x ∈ line', x.1 ≤ s.idleTimeout.toNat := fun x hx => by
    obtain ⟨y, hy, hxy⟩ := List.mem_map.mp (hgaps ▸ List.mem_map_of_mem hx : x.1 ∈ line.map Prod.fst)
    exact hxy ▸ hline y hy
  have hsame : SameExamined (line'.map Prod.snd) (line.map Prod.snd) := ⟨by simpa using hlength, hbytes⟩
  refine ⟨_, _, exec_poll_burst hline hin, exec_poll_burst hline' rfl, ?_⟩
  have hburst := (hsame.cut s.params.rxMax).handleBurst_eq
    (s := s.holdingBurst _ (overflows s.params.rxMax line.length) rest)
  rw [hlength]
  exact (congrArg (fun t : State => { t with acc := [] }) hburst).symm

/-! ### POLL as a composition (R191) -/

/-- An iteration's result, for a reader that another command runs. -/
def ReadStep.setForPoll (forPoll : Bool) : ReadStep → ReadStep
  | .going r => .going { r with forPoll := forPoll }
  | .finished r => .finished { r with forPoll := forPoll }
  | .failed => .failed

/-- The reader does the same whichever command runs it. -/
theorem Reading.advance_setForPoll (cap : Option Nat) (timeout : Ticks) (r : Reading) (forPoll : Bool) (e : LineEvent) :
    Reading.advance cap timeout { r with forPoll := forPoll } e = (r.advance cap timeout e).setForPoll forPoll := by
  rcases (answerOf e).chunk_or_fail_or_empty with ⟨b, bs, h⟩ | h | h
  · rw [Reading.advance_of_chunk _ _ _ h, Reading.advance_of_chunk _ _ _ h]
    rfl
  · rw [Reading.advance_of_fail _ _ _ h, Reading.advance_of_fail _ _ _ h]
    rfl
  · rw [Reading.advance_of_empty _ _ _ h, Reading.advance_of_empty _ _ _ h, Reading.wait, Reading.wait]
    split <;> rfl

/-- Where a READ_BURST ends with a burst, the reader of a POLL ends with the same. -/
theorem State.drain_startPoll (s : State) (inputs : List Input) {r : Reading} (hr : r.forPoll = false)
    (hbusy : (s.drain r inputs).busy = false) (hok : (s.drain r inputs).status = 0x00) :
    ∃ acc ovf rest,
      s.drain r inputs =
        { s with acc := acc, rxOvf := ovf, activity := .ready, inputs := rest, status := 0x00, info := 0 } ∧
      s.startPoll.drain { r with forPoll := true } inputs = (s.holdingBurst acc ovf rest).handleBurst := by
  induction inputs generalizing r with
  | nil => cases hbusy
  | cons i inputs ih =>
    cases i with
    | host a => cases hbusy
    | line e =>
      have hpoll := Reading.advance_setForPoll s.params.rxMax s.idleTimeout r true e
      cases ha : r.advance s.params.rxMax s.idleTimeout e with
      | going r' =>
        rw [ha] at hpoll
        rw [State.drain_going ha] at hbusy hok ⊢
        rw [State.drain_going (s := s.startPoll) hpoll]
        exact ih ((Reading.advance_forPoll ha).trans hr) hbusy hok
      | finished r' =>
        obtain rfl := advance_finished ha
        rw [ha] at hpoll
        rw [State.drain_finished ha, State.drain_finished (s := s.startPoll) hpoll, State.endReading_readBurst _ hr,
          State.endReading_poll _ rfl]
        exact ⟨r'.acc, r'.ovf, inputs, rfl, rfl⟩
      | failed =>
        rw [State.drain_failed ha] at hok
        cases hok

/-- A PARSE_PUBLISH that leaves a record found it in `IN0`. -/
theorem exec_parsePublish_record {s t : State} (h : exec .parsePublish s = .next t) (hrec : t.recValid = true) :
    ∃ r, parseBody s.in0Bytes = some r ∧ t = (s.setRecord r).done := by
  cases hparse : parseBody s.in0Bytes with
  | none =>
    obtain rfl := Host.Outcome.next.inj ((exec_parsePublish_of_none hparse).symm.trans h)
    cases hrec
  | some r => exact ⟨r, rfl, (Host.Outcome.next.inj ((exec_parsePublish_of_some hparse).symm.trans h)).symm⟩

/-- Settles O38: both read the same burst, parse the same body and ask the same consumers. -/
theorem pollIsComposition : Obligations.PollIsComposition := by
  intro s s1 s2 s3 s4 hread hbusy hok hovf hlen htype hin0 hcopy hparse hrec hdispatch
  obtain rfl := Host.Outcome.next.inj ((exec_readBurst s).symm.trans hread)
  obtain ⟨acc, ovf, rest, hburst, hpoll⟩ := s.drain_startPoll s.inputs (r := Reading.start false) rfl hbusy hok
  rw [hburst] at hovf hlen htype hin0 hcopy
  obtain ⟨r, hr, rfl⟩ := exec_parsePublish_record hparse hrec
  obtain rfl := Host.Outcome.next.inj ((exec_dispatch_of_record hrec).symm.trans hdispatch)
  rw [hin0] at hr
  refine ⟨_, (exec_poll s).trans (congrArg Host.Outcome.next hpoll), ?_⟩
  rw [State.handleBurst_of_parse (s := s.holdingBurst acc ovf rest) hovf hlen htype hr, hcopy, State.dispatchAll_eq,
    State.dispatchAll_eq]
  exact ⟨rfl, rfl, rfl, rfl, rfl⟩

end Sys2Proof.Machine
end

section
/-! Which status each command can end with (R205): one lemma for each part of the machine that ends a command. -/

namespace Sys2Proof.Machine

open Sys2Proof Sys2Proof.Safety

/-! ### The builders (R117, R118) -/

theorem State.status_offer (s : State) (frame : Bytes) :
    (s.offer frame).status = 0x00 ∨ (s.offer frame).status = 0x02 := by
  unfold State.offer
  exact ite_eq_or_eq _ _ _

/-- A builder offers its frame or is refused for a length. -/
theorem exec_builder_status {i : Instr} (hi : i ∈ builders) (s : State) :
    ∃ t, exec i s = .next t ∧ (t.status = 0x00 ∨ t.status = 0x02 ∨ t.status = 0x03) := by
  by_cases h : s.FrameFits i
  · exact ⟨_, exec_builder_of_fits hi h, (s.status_offer _).imp_right .inl⟩
  · obtain ⟨n, hn⟩ := exec_builder_of_not_fits hi h
    exact ⟨_, hn, .inr (.inr rfl)⟩

/-! ### REGISTER and DISPATCH (R177, R181) -/

theorem exec_register_status (s : State) :
    ∃ t, exec .register s = .next t ∧ (t.status = 0x00 ∨ t.status = 0x04) := by
  rcases execRegister_cases s with ⟨_, he⟩ | ⟨_, _, he⟩ | ⟨_, _, he⟩
  · exact ⟨_, he, .inl rfl⟩
  · exact ⟨_, he, .inr rfl⟩
  · exact ⟨_, he, .inl rfl⟩

theorem exec_dispatch_status (s : State) :
    ∃ t, exec .dispatch s = .next t ∧ (t.status = 0x00 ∨ t.status = 0x07) := by
  cases hrec : s.recValid with
  | true => exact ⟨_, exec_dispatch_of_record hrec, .inl rfl⟩
  | false => exact ⟨_, exec_dispatch_of_no_record hrec, .inr rfl⟩

/-! ### The link reader (R146, R149, R190) -/

/-- A burst that is complete ends its command with `OK`, whichever command runs the reader. -/
theorem State.status_endReading (s : State) (r : Reading) : (s.endReading r).status = 0x00 := by
  cases hpoll : r.forPoll with
  | false => rw [State.endReading_readBurst _ hpoll]
  | true =>
    obtain ⟨_, _, _, _, _, _, _, he⟩ := State.handleBurst_eq { s with acc := r.acc, rxOvf := r.ovf, activity := .ready }
    rw [State.endReading_poll _ hpoll, he]

/-- A reader goes on with `STATUS` and `INFO` untouched, ends with a burst, or fails. -/
theorem State.drain_status (s : State) (r : Reading) (inputs : List Input) :
    (s.drain r inputs).status = 0x00 ∨ (s.drain r inputs).status = 0x01 ∨
      ((s.drain r inputs).busy = true ∧ (s.drain r inputs).status = s.status ∧ (s.drain r inputs).info = s.info) := by
  obtain ⟨rest, _, ⟨r', _, he⟩ | ⟨r', _, he⟩ | he⟩ :=
    s.drain_cases (fun _ => True) (fun _ _ _ _ _ => trivial) (fun _ _ _ _ _ => trivial) inputs r trivial
  · exact he ▸ .inr (.inr ⟨rfl, rfl, rfl⟩)
  · exact he ▸ .inl (State.status_endReading _ r')
  · exact he ▸ .inr (.inl rfl)

/-! ### Every command -/

/-- Settles O58: command by command. POLL drops the record before it reads, which leaves `STATUS` and `INFO` alone. -/
theorem statusByCommand : Obligations.StatusByCommand := by
  refine fun s => ⟨fun i hi => ?pure, fun i hi => exec_builder_status hi s, exec_register_status s,
    exec_dispatch_status s, fun i hi => ?readers⟩
  case pure =>
    obtain rfl | rfl | rfl : i = .checksum ∨ i = .stuff ∨ i = .parsePublish := by simpa using hi
    · exact ⟨_, rfl, rfl, rfl⟩
    · exact ⟨_, rfl, rfl, rfl⟩
    · exact ⟨_, exec_parsePublish s, rfl, rfl⟩
  case readers =>
    obtain rfl | rfl : i = .readBurst ∨ i = .poll := by simpa using hi
    · exact ⟨_, exec_readBurst s, s.drain_status _ _⟩
    · exact ⟨_, exec_poll s, s.startPoll.drain_status _ _⟩

end Sys2Proof.Machine
end

section
/-! What a reset leaves of the block (R33, R230): the constructed block, and the environment's part of the state before. -/

namespace Sys2Proof.Machine

open Sys2Proof

/-- R230: a reset is taken whether or not a command runs. -/
theorem step_reset {s : State} {node : NodeId} {rest : List Input} (h : s.inputs = .host (.reset node) :: rest) :
    step s = .next ({ s with inputs := rest }.resetBlock node) := step_of_fetch_over (State.fetch_host h)

/-- Settles O52: the block's own fields are those of the constructed block (`resetValues`), which the reset puts back with
the parameters it was built with; only the environment's lists are carried over. -/
theorem resetAbandonsEverything : Obligations.ResetAbandonsEverything := by
  intro s node rest hin
  obtain ⟨hparams, hnode, hregy, hbusy, hrec, hovf, hresults⟩ :=
    resetValues.2 s.params node (s.free.cell + 1) _ rfl
  obtain ⟨hstatus, hinfo, htxCount, hdispatched, hseed, hcrc, hver, hhandle, hidle, hlengths⟩ := hresults
  obtain ⟨hin0, hin1, hin2, hout, hfbuf, htxbuf, hacc, htxTrace, hcbTrace⟩ := hlengths
  exact ⟨_, step_reset hin, hnode, hparams, hbusy, hrec, hovf, hregy, hstatus, hinfo, htxCount, hdispatched, hseed, hcrc,
    hver, hhandle, hidle, hin0, hin1, hin2, hout, hfbuf, htxbuf, hacc, htxTrace, hcbTrace, rfl, rfl, rfl⟩

end Sys2Proof.Machine
end
